-- ==== Sys2Proof/Word.lean ====
section
/-! DEFINITION. The widths of the machine: bytes, 16-bit words (program words, word addresses and
effective data addresses) and the 24-bit byte address of the ADDR register. -/

namespace Sys2Proof

/-- One byte: the data width (00_scope.md R5). -/
abbrev Byte := BitVec 8

/-- 16 bits: an instruction word, a word address (10_state.md R22) or an effective data address
(30_encoding.md R104). -/
abbrev Word := BitVec 16

/-- The 24-bit byte address ADDRX || ADDRH || ADDRL (10_state.md R32). -/
abbrev ByteAddress := BitVec 24

end Sys2Proof
end

