-- ==== Sys2Proof/Machine/Bits.lean ====
section
/-! DEFINITION. Bit-field and byte-order helpers (00_scope.md R6). -/

namespace Sys2Proof.Machine

/-- Bits 15:8 of a word. -/
def hiByte (x : Word) : Byte := x.extractLsb' 8 8

/-- Bits 7:0 of a word. -/
def loByte (x : Word) : Byte := x.extractLsb' 0 8

/-- Concatenation `hi || lo` (00_scope.md R6). -/
def joinBytes (hi lo : Byte) : Word := hi ++ lo

/-- The byte with one bit set to the given value. -/
def setBit (v : Byte) (i : Nat) (b : Bool) : Byte :=
  if b then v ||| (1#8 <<< i) else v &&& ~~~(1#8 <<< i)

/-- The 8-bit value of one bit, 0 or 1. -/
def bitValue (b : Bool) : Byte := if b then 1 else 0

/-- `v[3:0] || v[7:4]` (41_arithmetic_shift.md R175). -/
def swapNibbles (v : Byte) : Byte := v.extractLsb' 0 4 ++ v.extractLsb' 4 4

end Sys2Proof.Machine
end

