-- ==== Sys2Proof/Syntax.lean ====
section
/-! DEFINITION. The syntax: one constructor of `Instr` per row of spec/opcode_table.json, in the table's order.
The operand `fr` is the four addressing forms of 30_encoding.md R103; literals, bit numbers and jump fields
are the bits the manual treats as bits (R102). -/

namespace Sys2Proof

/-- The `fr` operand: the four forms of 30_encoding.md R103. -/
inductive FileOperand where
  /-- `(ip)`: the byte IP points at. -/
  | indirect
  /-- A register or global register by its address, 0x01..0xFF. -/
  | direct (a : BitVec 8)
  /-- `offset(dp)`, offsets 0..127. -/
  | dpOffset (o : BitVec 7)
  /-- `offset(sp)`, offsets 0..127. -/
  | spOffset (o : BitVec 7)
  deriving DecidableEq, Repr

/-- The 83 instruction forms (30_encoding.md R108). -/
inductive Instr where
  /-- `MOV fr,W` (R220). -/
  | movFrW (f : FileOperand)
  /-- `CMP W,fr` (R162). -/
  | cmpWFr (f : FileOperand)
  /-- `CLR fr` (R164). -/
  | clrFr (f : FileOperand)
  /-- `SUB W,fr` (R158). -/
  | subWFr (f : FileOperand)
  /-- `SUB fr,W` (R157). -/
  | subFrW (f : FileOperand)
  /-- `DEC W,fr` (R166). -/
  | decWFr (f : FileOperand)
  /-- `DEC fr` (R165). -/
  | decFr (f : FileOperand)
  /-- `OR W,fr` (R135). -/
  | orWFr (f : FileOperand)
  /-- `OR fr,W` (R134). -/
  | orFrW (f : FileOperand)
  /-- `AND W,fr` (R132). -/
  | andWFr (f : FileOperand)
  /-- `AND fr,W` (R131). -/
  | andFrW (f : FileOperand)
  /-- `XOR W,fr` (R138). -/
  | xorWFr (f : FileOperand)
  /-- `XOR fr,W` (R137). -/
  | xorFrW (f : FileOperand)
  /-- `ADD W,fr` (R153). -/
  | addWFr (f : FileOperand)
  /-- `ADD fr,W` (R152). -/
  | addFrW (f : FileOperand)
  /-- `MOV W,fr` (R221). -/
  | movWFr (f : FileOperand)
  /-- `TEST fr` (R167). -/
  | testFr (f : FileOperand)
  /-- `NOT W,fr` (R141). -/
  | notWFr (f : FileOperand)
  /-- `NOT fr` (R140). -/
  | notFr (f : FileOperand)
  /-- `INC W,fr` (R169). -/
  | incWFr (f : FileOperand)
  /-- `INC fr` (R168). -/
  | incFr (f : FileOperand)
  /-- `DECSZ W,fr` (R197). -/
  | decszWFr (f : FileOperand)
  /-- `DECSZ fr` (R196). -/
  | decszFr (f : FileOperand)
  /-- `RR W,fr` (R174). -/
  | rrWFr (f : FileOperand)
  /-- `RR fr` (R173). -/
  | rrFr (f : FileOperand)
  /-- `RL W,fr` (R172). -/
  | rlWFr (f : FileOperand)
  /-- `RL fr` (R171). -/
  | rlFr (f : FileOperand)
  /-- `SWAP W,fr` (R176). -/
  | swapWFr (f : FileOperand)
  /-- `SWAP fr` (R175). -/
  | swapFr (f : FileOperand)
  /-- `INCSZ W,fr` (R201). -/
  | incszWFr (f : FileOperand)
  /-- `INCSZ fr` (R200). -/
  | incszFr (f : FileOperand)
  /-- `CSNE W,fr` (R192). -/
  | csneWFr (f : FileOperand)
  /-- `CSE W,fr` (R190). -/
  | cseWFr (f : FileOperand)
  /-- `PUSH fr` (R223). -/
  | pushFr (f : FileOperand)
  /-- `POP fr` (R225). -/
  | popFr (f : FileOperand)
  /-- `SUBC W,fr` (R161). -/
  | subcWFr (f : FileOperand)
  /-- `SUBC fr,W` (R160). -/
  | subcFrW (f : FileOperand)
  /-- `DECSNZ W,fr` (R199). -/
  | decsnzWFr (f : FileOperand)
  /-- `DECSNZ fr` (R198). -/
  | decsnzFr (f : FileOperand)
  /-- `MULU W,fr` (R179). -/
  | muluWFr (f : FileOperand)
  /-- `MULS W,fr` (R177). -/
  | mulsWFr (f : FileOperand)
  /-- `INCSNZ W,fr` (R203). -/
  | incsnzWFr (f : FileOperand)
  /-- `INCSNZ fr` (R202). -/
  | incsnzFr (f : FileOperand)
  /-- `ADDC W,fr` (R156). -/
  | addcWFr (f : FileOperand)
  /-- `ADDC fr,W` (R155). -/
  | addcFrW (f : FileOperand)
  /-- `LOADH addr8` (R261). -/
  | loadh (k : BitVec 8)
  /-- `LOADL addr8` (R262). -/
  | loadl (k : BitVec 8)
  /-- `MULU W,#lit8` (R180). -/
  | muluWLit (k : BitVec 8)
  /-- `MULS W,#lit8` (R178). -/
  | mulsWLit (k : BitVec 8)
  /-- `PUSH #lit8` (R224). -/
  | pushLit (k : BitVec 8)
  /-- `CSNE W,#lit8` (R193). -/
  | csneWLit (k : BitVec 8)
  /-- `CSE W,#lit8` (R191). -/
  | cseWLit (k : BitVec 8)
  /-- `RETW #lit8` (R240). -/
  | retw (k : BitVec 8)
  /-- `CMP W,#lit8` (R163). -/
  | cmpWLit (k : BitVec 8)
  /-- `SUB W,#lit8` (R159). -/
  | subWLit (k : BitVec 8)
  /-- `ADD W,#lit8` (R154). -/
  | addWLit (k : BitVec 8)
  /-- `MOV W,#lit8` (R222). -/
  | movWLit (k : BitVec 8)
  /-- `OR W,#lit8` (R136). -/
  | orWLit (k : BitVec 8)
  /-- `AND W,#lit8` (R133). -/
  | andWLit (k : BitVec 8)
  /-- `XOR W,#lit8` (R139). -/
  | xorWLit (k : BitVec 8)
  /-- `CLRB fr,bit` (R210). -/
  | clrbFrBit (f : FileOperand) (b : BitVec 3)
  /-- `SETB fr,bit` (R211). -/
  | setbFrBit (f : FileOperand) (b : BitVec 3)
  /-- `SNB fr,bit` (R213). -/
  | snbFrBit (f : FileOperand) (b : BitVec 3)
  /-- `SB fr,bit` (R212). -/
  | sbFrBit (f : FileOperand) (b : BitVec 3)
  /-- `CALL addr13` (R231). -/
  | call (k : BitVec 13)
  /-- `JMP addr13` (R230). -/
  | jmp (k : BitVec 13)
  /-- `NOP` (R233). -/
  | nop
  /-- `BREAK` (R250). -/
  | brk
  /-- `RETNP` (R236). -/
  | retnp
  /-- `FERASE` (R254). -/
  | ferase
  /-- `CWDT` (R181). -/
  | cwdt
  /-- `BREAKX` (R251). -/
  | brkx
  /-- `INT` (R232). -/
  | int
  /-- `RET` (R235). -/
  | ret
  /-- `RETI #lit3` (R238). -/
  | reti (n : BitVec 3)
  /-- `PAGE addr3` (R263). -/
  | page (n : BitVec 3)
  /-- `IWRITE` (R259). -/
  | iwrite
  /-- `IREAD` (R257). -/
  | iread
  /-- `FWRITE` (R256). -/
  | fwrite
  /-- `FREAD` (R255). -/
  | fread
  /-- `IWRITEI` (R260). -/
  | iwritei
  /-- `IREADI` (R258). -/
  | ireadi
  /-- `SPEED #lit8` (R264). -/
  | speed (n : BitVec 8)
  deriving DecidableEq, Repr

end Sys2Proof
end

