-- ==== Sys2Proof/WellFormed.lean ====
section
/-! DEFINITION. Well-formed instructions: those that some instruction word encodes. The field widths are in the types,
so one check is left: a direct operand is one of the addresses 0x01..0xFF (30_encoding.md R103: the code 0x000
is `(ip)`). Every other operand value is accepted (R109: "no operand bit is reserved"). -/

namespace Sys2Proof

/-- A direct operand names an address in 0x01..0xFF (30_encoding.md R103). -/
def FileOperand.wellFormed : FileOperand → Bool
  | .indirect => true
  | .direct a => a != 0
  | .dpOffset _ => true
  | .spOffset _ => true

/-- The instruction has an encoding. -/
def Instr.wellFormed : Instr → Bool
  | .movFrW f => f.wellFormed
  | .cmpWFr f => f.wellFormed
  | .clrFr f => f.wellFormed
  | .subWFr f => f.wellFormed
  | .subFrW f => f.wellFormed
  | .decWFr f => f.wellFormed
  | .decFr f => f.wellFormed
  | .orWFr f => f.wellFormed
  | .orFrW f => f.wellFormed
  | .andWFr f => f.wellFormed
  | .andFrW f => f.wellFormed
  | .xorWFr f => f.wellFormed
  | .xorFrW f => f.wellFormed
  | .addWFr f => f.wellFormed
  | .addFrW f => f.wellFormed
  | .movWFr f => f.wellFormed
  | .testFr f => f.wellFormed
  | .notWFr f => f.wellFormed
  | .notFr f => f.wellFormed
  | .incWFr f => f.wellFormed
  | .incFr f => f.wellFormed
  | .decszWFr f => f.wellFormed
  | .decszFr f => f.wellFormed
  | .rrWFr f => f.wellFormed
  | .rrFr f => f.wellFormed
  | .rlWFr f => f.wellFormed
  | .rlFr f => f.wellFormed
  | .swapWFr f => f.wellFormed
  | .swapFr f => f.wellFormed
  | .incszWFr f => f.wellFormed
  | .incszFr f => f.wellFormed
  | .csneWFr f => f.wellFormed
  | .cseWFr f => f.wellFormed
  | .pushFr f => f.wellFormed
  | .popFr f => f.wellFormed
  | .subcWFr f => f.wellFormed
  | .subcFrW f => f.wellFormed
  | .decsnzWFr f => f.wellFormed
  | .decsnzFr f => f.wellFormed
  | .muluWFr f => f.wellFormed
  | .mulsWFr f => f.wellFormed
  | .incsnzWFr f => f.wellFormed
  | .incsnzFr f => f.wellFormed
  | .addcWFr f => f.wellFormed
  | .addcFrW f => f.wellFormed
  | .loadh _ => true
  | .loadl _ => true
  | .muluWLit _ => true
  | .mulsWLit _ => true
  | .pushLit _ => true
  | .csneWLit _ => true
  | .cseWLit _ => true
  | .retw _ => true
  | .cmpWLit _ => true
  | .subWLit _ => true
  | .addWLit _ => true
  | .movWLit _ => true
  | .orWLit _ => true
  | .andWLit _ => true
  | .xorWLit _ => true
  | .clrbFrBit f _ => f.wellFormed
  | .setbFrBit f _ => f.wellFormed
  | .snbFrBit f _ => f.wellFormed
  | .sbFrBit f _ => f.wellFormed
  | .call _ => true
  | .jmp _ => true
  | .nop => true
  | .brk => true
  | .retnp => true
  | .ferase => true
  | .cwdt => true
  | .brkx => true
  | .int => true
  | .ret => true
  | .reti _ => true
  | .page _ => true
  | .iwrite => true
  | .iread => true
  | .fwrite => true
  | .fread => true
  | .iwritei => true
  | .ireadi => true
  | .speed _ => true

end Sys2Proof
end

