-- ==== Sys2Proof/Decode.lean ====
section
/-! DEFINITION. The decoder, by the procedure of 30_encoding.md R106 and the map of R108, total on any bytes and
rejecting by name; then the encoder, written from the same tables; then the opcode rows (mask and match). -/

namespace Sys2Proof

/-- Why bytes are no instruction. The first three are the unassigned words of 30_encoding.md R109. -/
inductive DecodeReject where
  /-- 0x001E, 0x001F, 0x0020..0x00FF. -/
  | unassignedMisc
  /-- FR opcodes 0101 001, 0101 011 and 0110 000 to 0110 111. -/
  | unassignedFile
  /-- LIT opcode 0101. -/
  | unassignedLiteral
  /-- Fewer than the two bytes of a word. -/
  | truncated
  deriving DecidableEq, Repr

/-! ### The decoder -/

/-- The 9-bit `f` field (30_encoding.md R103). PRESUMED by the spec (log entry 1). -/
def decodeFile (f : BitVec 9) : FileOperand :=
  if f = 0 then .indirect
  else if f.getLsbD 8 = false then .direct (f.extractLsb' 0 8)
  else if f.getLsbD 7 = false then .dpOffset (f.extractLsb' 0 7)
  else .spOffset (f.extractLsb' 0 7)

/-- FR format: the opcode is bits 15:9 (30_encoding.md R101, R108). -/
def decodeFileFormat (opcode : BitVec 7) (f : FileOperand) : Except DecodeReject Instr :=
  match opcode.toNat with
  | 0b0000001 => .ok (.movFrW f)
  | 0b0000010 => .ok (.cmpWFr f)
  | 0b0000011 => .ok (.clrFr f)
  | 0b0000100 => .ok (.subWFr f)
  | 0b0000101 => .ok (.subFrW f)
  | 0b0000110 => .ok (.decWFr f)
  | 0b0000111 => .ok (.decFr f)
  | 0b0001000 => .ok (.orWFr f)
  | 0b0001001 => .ok (.orFrW f)
  | 0b0001010 => .ok (.andWFr f)
  | 0b0001011 => .ok (.andFrW f)
  | 0b0001100 => .ok (.xorWFr f)
  | 0b0001101 => .ok (.xorFrW f)
  | 0b0001110 => .ok (.addWFr f)
  | 0b0001111 => .ok (.addFrW f)
  | 0b0010000 => .ok (.movWFr f)
  | 0b0010001 => .ok (.testFr f)
  | 0b0010010 => .ok (.notWFr f)
  | 0b0010011 => .ok (.notFr f)
  | 0b0010100 => .ok (.incWFr f)
  | 0b0010101 => .ok (.incFr f)
  | 0b0010110 => .ok (.decszWFr f)
  | 0b0010111 => .ok (.decszFr f)
  | 0b0011000 => .ok (.rrWFr f)
  | 0b0011001 => .ok (.rrFr f)
  | 0b0011010 => .ok (.rlWFr f)
  | 0b0011011 => .ok (.rlFr f)
  | 0b0011100 => .ok (.swapWFr f)
  | 0b0011101 => .ok (.swapFr f)
  | 0b0011110 => .ok (.incszWFr f)
  | 0b0011111 => .ok (.incszFr f)
  | 0b0100000 => .ok (.csneWFr f)
  | 0b0100001 => .ok (.cseWFr f)
  | 0b0100010 => .ok (.pushFr f)
  | 0b0100011 => .ok (.popFr f)
  | 0b0100100 => .ok (.subcWFr f)
  | 0b0100101 => .ok (.subcFrW f)
  | 0b0100110 => .ok (.decsnzWFr f)
  | 0b0100111 => .ok (.decsnzFr f)
  | 0b0101000 => .ok (.muluWFr f)
  | 0b0101010 => .ok (.mulsWFr f)
  | 0b0101100 => .ok (.incsnzWFr f)
  | 0b0101101 => .ok (.incsnzFr f)
  | 0b0101110 => .ok (.addcWFr f)
  | 0b0101111 => .ok (.addcFrW f)
  | _ => .error .unassignedFile

/-- LIT format: the opcode is bits 11:8 (30_encoding.md R101, R108). -/
def decodeLiteralFormat (opcode : BitVec 4) (k : BitVec 8) : Except DecodeReject Instr :=
  match opcode.toNat with
  | 0b0000 => .ok (.loadh k)
  | 0b0001 => .ok (.loadl k)
  | 0b0010 => .ok (.muluWLit k)
  | 0b0011 => .ok (.mulsWLit k)
  | 0b0100 => .ok (.pushLit k)
  | 0b0110 => .ok (.csneWLit k)
  | 0b0111 => .ok (.cseWLit k)
  | 0b1000 => .ok (.retw k)
  | 0b1001 => .ok (.cmpWLit k)
  | 0b1010 => .ok (.subWLit k)
  | 0b1011 => .ok (.addWLit k)
  | 0b1100 => .ok (.movWLit k)
  | 0b1101 => .ok (.orWLit k)
  | 0b1110 => .ok (.andWLit k)
  | 0b1111 => .ok (.xorWLit k)
  | _ => .error .unassignedLiteral

/-- BIT format: the opcode is bits 13:12 (30_encoding.md R106). -/
def decodeBitFormat (opcode : BitVec 2) (b : BitVec 3) (f : FileOperand) : Instr :=
  match opcode.toNat with
  | 0b00 => .clrbFrBit f b
  | 0b01 => .setbFrBit f b
  | 0b10 => .snbFrBit f b
  | _ => .sbFrBit f b

/-- MISC format with bit 8 clear: the fixed words, `reti` and `page`; `row` is bits 7:3 and `n` bits 2:0
(30_encoding.md R108). -/
def decodeMisc (row : BitVec 5) (n : BitVec 3) : Except DecodeReject Instr :=
  match row.toNat, n.toNat with
  | 0b00000, 0b000 => .ok .nop
  | 0b00000, 0b001 => .ok .brk
  | 0b00000, 0b010 => .ok .retnp
  | 0b00000, 0b011 => .ok .ferase
  | 0b00000, 0b100 => .ok .cwdt
  | 0b00000, 0b101 => .ok .brkx
  | 0b00000, 0b110 => .ok .int
  | 0b00000, 0b111 => .ok .ret
  | 0b00001, _ => .ok (.reti n)
  | 0b00010, _ => .ok (.page n)
  | 0b00011, 0b000 => .ok .iwrite
  | 0b00011, 0b001 => .ok .iread
  | 0b00011, 0b010 => .ok .fwrite
  | 0b00011, 0b011 => .ok .fread
  | 0b00011, 0b100 => .ok .iwritei
  | 0b00011, 0b101 => .ok .ireadi
  | _, _ => .error .unassignedMisc

/-- The decoding procedure of 30_encoding.md R106. -/
def decode (ir : Word) : Except DecodeReject Instr :=
  let f := decodeFile (ir.extractLsb' 0 9)
  if ir.extractLsb' 14 2 = 0b11#2 then
    if ir.getLsbD 13 then .ok (.jmp (ir.extractLsb' 0 13)) else .ok (.call (ir.extractLsb' 0 13))
  else if ir.extractLsb' 14 2 = 0b10#2 then
    .ok (decodeBitFormat (ir.extractLsb' 12 2) (ir.extractLsb' 9 3) f)
  else if ir.extractLsb' 12 4 = 0b0111#4 then
    decodeLiteralFormat (ir.extractLsb' 8 4) (ir.extractLsb' 0 8)
  else if ir.extractLsb' 9 7 = 0b0000000#7 then
    if ir.getLsbD 8 then .ok (.speed (ir.extractLsb' 0 8))
    else decodeMisc (ir.extractLsb' 3 5) (ir.extractLsb' 0 3)
  else decodeFileFormat (ir.extractLsb' 9 7) f

/-- The word whose high byte is at the even (lower) byte address (20_memory.md R79). -/
def wordOfBytes (hi lo : Byte) : Word := hi ++ lo

/-- Decode from bytes in storage order: one word is one instruction (30_encoding.md R100). The bytes that follow are
handed back. -/
def decodeBytes : List Byte → Except DecodeReject (Instr × List Byte)
  | hi :: lo :: rest =>
    match decode (wordOfBytes hi lo) with
    | .ok i => .ok (i, rest)
    | .error r => .error r
  | _ => .error .truncated

/-- The bytes of a word as program memory stores them (20_memory.md R79). -/
def bytesOfWord (w : Word) : List Byte := [w.extractLsb' 8 8, w.extractLsb' 0 8]

/-- The instruction the decoder reads from the bits `w` of a table row. Every instruction is 16 bits, so a row
of more bits names none. -/
def decodeTableWord (nbits w : Nat) : Option Instr :=
  if nbits ≤ 16 then
    match decodeBytes (bytesOfWord (BitVec.ofNat 16 w)) with
    | .ok (i, _) => some i
    | .error _ => none
  else none

/-! ### The encoder -/

/-- The 9-bit `f` field of an operand (30_encoding.md R103). -/
def encodeFile : FileOperand → BitVec 9
  | .indirect => 0
  | .direct a => 0b0#1 ++ a
  | .dpOffset o => 0b10#2 ++ o
  | .spOffset o => 0b11#2 ++ o

/-- FR format word. -/
def fileWord (opcode : BitVec 7) (f : FileOperand) : Word := opcode ++ encodeFile f

/-- LIT format word. -/
def literalWord (opcode : BitVec 4) (k : BitVec 8) : Word := 0b0111#4 ++ opcode ++ k

/-- BIT format word. -/
def bitWord (opcode : BitVec 2) (b : BitVec 3) (f : FileOperand) : Word := 0b10#2 ++ opcode ++ b ++ encodeFile f

/-- MISC format word of the fixed group. -/
def miscWord (row : BitVec 5) (n : BitVec 3) : Word := 0x00#8 ++ row ++ n

/-- The word of an instruction (30_encoding.md R108). -/
def encode : Instr → Word
  | .movFrW f => fileWord 0b0000001 f
  | .cmpWFr f => fileWord 0b0000010 f
  | .clrFr f => fileWord 0b0000011 f
  | .subWFr f => fileWord 0b0000100 f
  | .subFrW f => fileWord 0b0000101 f
  | .decWFr f => fileWord 0b0000110 f
  | .decFr f => fileWord 0b0000111 f
  | .orWFr f => fileWord 0b0001000 f
  | .orFrW f => fileWord 0b0001001 f
  | .andWFr f => fileWord 0b0001010 f
  | .andFrW f => fileWord 0b0001011 f
  | .xorWFr f => fileWord 0b0001100 f
  | .xorFrW f => fileWord 0b0001101 f
  | .addWFr f => fileWord 0b0001110 f
  | .addFrW f => fileWord 0b0001111 f
  | .movWFr f => fileWord 0b0010000 f
  | .testFr f => fileWord 0b0010001 f
  | .notWFr f => fileWord 0b0010010 f
  | .notFr f => fileWord 0b0010011 f
  | .incWFr f => fileWord 0b0010100 f
  | .incFr f => fileWord 0b0010101 f
  | .decszWFr f => fileWord 0b0010110 f
  | .decszFr f => fileWord 0b0010111 f
  | .rrWFr f => fileWord 0b0011000 f
  | .rrFr f => fileWord 0b0011001 f
  | .rlWFr f => fileWord 0b0011010 f
  | .rlFr f => fileWord 0b0011011 f
  | .swapWFr f => fileWord 0b0011100 f
  | .swapFr f => fileWord 0b0011101 f
  | .incszWFr f => fileWord 0b0011110 f
  | .incszFr f => fileWord 0b0011111 f
  | .csneWFr f => fileWord 0b0100000 f
  | .cseWFr f => fileWord 0b0100001 f
  | .pushFr f => fileWord 0b0100010 f
  | .popFr f => fileWord 0b0100011 f
  | .subcWFr f => fileWord 0b0100100 f
  | .subcFrW f => fileWord 0b0100101 f
  | .decsnzWFr f => fileWord 0b0100110 f
  | .decsnzFr f => fileWord 0b0100111 f
  | .muluWFr f => fileWord 0b0101000 f
  | .mulsWFr f => fileWord 0b0101010 f
  | .incsnzWFr f => fileWord 0b0101100 f
  | .incsnzFr f => fileWord 0b0101101 f
  | .addcWFr f => fileWord 0b0101110 f
  | .addcFrW f => fileWord 0b0101111 f
  | .loadh k => literalWord 0b0000 k
  | .loadl k => literalWord 0b0001 k
  | .muluWLit k => literalWord 0b0010 k
  | .mulsWLit k => literalWord 0b0011 k
  | .pushLit k => literalWord 0b0100 k
  | .csneWLit k => literalWord 0b0110 k
  | .cseWLit k => literalWord 0b0111 k
  | .retw k => literalWord 0b1000 k
  | .cmpWLit k => literalWord 0b1001 k
  | .subWLit k => literalWord 0b1010 k
  | .addWLit k => literalWord 0b1011 k
  | .movWLit k => literalWord 0b1100 k
  | .orWLit k => literalWord 0b1101 k
  | .andWLit k => literalWord 0b1110 k
  | .xorWLit k => literalWord 0b1111 k
  | .clrbFrBit f b => bitWord 0b00 b f
  | .setbFrBit f b => bitWord 0b01 b f
  | .snbFrBit f b => bitWord 0b10 b f
  | .sbFrBit f b => bitWord 0b11 b f
  | .call k => 0b110#3 ++ k
  | .jmp k => 0b111#3 ++ k
  | .nop => miscWord 0b00000 0b000
  | .brk => miscWord 0b00000 0b001
  | .retnp => miscWord 0b00000 0b010
  | .ferase => miscWord 0b00000 0b011
  | .cwdt => miscWord 0b00000 0b100
  | .brkx => miscWord 0b00000 0b101
  | .int => miscWord 0b00000 0b110
  | .ret => miscWord 0b00000 0b111
  | .reti n => miscWord 0b00001 n
  | .page n => miscWord 0b00010 n
  | .iwrite => miscWord 0b00011 0b000
  | .iread => miscWord 0b00011 0b001
  | .fwrite => miscWord 0b00011 0b010
  | .fread => miscWord 0b00011 0b011
  | .iwritei => miscWord 0b00011 0b100
  | .ireadi => miscWord 0b00011 0b101
  | .speed n => 0x01#8 ++ n

/-! ### The opcode map as rows of mask and match -/

/-- One row of the opcode map: a word `w` is the row's when `w & mask = value` (30_encoding.md R108). -/
structure OpcodeRow where
  mask : Word
  value : Word
  deriving DecidableEq, Repr

/-- The row of an instruction (30_encoding.md R108). -/
def opcodeRow : Instr → OpcodeRow
  | .movFrW _ => ⟨0xFE00, 0x0200⟩
  | .cmpWFr _ => ⟨0xFE00, 0x0400⟩
  | .clrFr _ => ⟨0xFE00, 0x0600⟩
  | .subWFr _ => ⟨0xFE00, 0x0800⟩
  | .subFrW _ => ⟨0xFE00, 0x0A00⟩
  | .decWFr _ => ⟨0xFE00, 0x0C00⟩
  | .decFr _ => ⟨0xFE00, 0x0E00⟩
  | .orWFr _ => ⟨0xFE00, 0x1000⟩
  | .orFrW _ => ⟨0xFE00, 0x1200⟩
  | .andWFr _ => ⟨0xFE00, 0x1400⟩
  | .andFrW _ => ⟨0xFE00, 0x1600⟩
  | .xorWFr _ => ⟨0xFE00, 0x1800⟩
  | .xorFrW _ => ⟨0xFE00, 0x1A00⟩
  | .addWFr _ => ⟨0xFE00, 0x1C00⟩
  | .addFrW _ => ⟨0xFE00, 0x1E00⟩
  | .movWFr _ => ⟨0xFE00, 0x2000⟩
  | .testFr _ => ⟨0xFE00, 0x2200⟩
  | .notWFr _ => ⟨0xFE00, 0x2400⟩
  | .notFr _ => ⟨0xFE00, 0x2600⟩
  | .incWFr _ => ⟨0xFE00, 0x2800⟩
  | .incFr _ => ⟨0xFE00, 0x2A00⟩
  | .decszWFr _ => ⟨0xFE00, 0x2C00⟩
  | .decszFr _ => ⟨0xFE00, 0x2E00⟩
  | .rrWFr _ => ⟨0xFE00, 0x3000⟩
  | .rrFr _ => ⟨0xFE00, 0x3200⟩
  | .rlWFr _ => ⟨0xFE00, 0x3400⟩
  | .rlFr _ => ⟨0xFE00, 0x3600⟩
  | .swapWFr _ => ⟨0xFE00, 0x3800⟩
  | .swapFr _ => ⟨0xFE00, 0x3A00⟩
  | .incszWFr _ => ⟨0xFE00, 0x3C00⟩
  | .incszFr _ => ⟨0xFE00, 0x3E00⟩
  | .csneWFr _ => ⟨0xFE00, 0x4000⟩
  | .cseWFr _ => ⟨0xFE00, 0x4200⟩
  | .pushFr _ => ⟨0xFE00, 0x4400⟩
  | .popFr _ => ⟨0xFE00, 0x4600⟩
  | .subcWFr _ => ⟨0xFE00, 0x4800⟩
  | .subcFrW _ => ⟨0xFE00, 0x4A00⟩
  | .decsnzWFr _ => ⟨0xFE00, 0x4C00⟩
  | .decsnzFr _ => ⟨0xFE00, 0x4E00⟩
  | .muluWFr _ => ⟨0xFE00, 0x5000⟩
  | .mulsWFr _ => ⟨0xFE00, 0x5400⟩
  | .incsnzWFr _ => ⟨0xFE00, 0x5800⟩
  | .incsnzFr _ => ⟨0xFE00, 0x5A00⟩
  | .addcWFr _ => ⟨0xFE00, 0x5C00⟩
  | .addcFrW _ => ⟨0xFE00, 0x5E00⟩
  | .loadh _ => ⟨0xFF00, 0x7000⟩
  | .loadl _ => ⟨0xFF00, 0x7100⟩
  | .muluWLit _ => ⟨0xFF00, 0x7200⟩
  | .mulsWLit _ => ⟨0xFF00, 0x7300⟩
  | .pushLit _ => ⟨0xFF00, 0x7400⟩
  | .csneWLit _ => ⟨0xFF00, 0x7600⟩
  | .cseWLit _ => ⟨0xFF00, 0x7700⟩
  | .retw _ => ⟨0xFF00, 0x7800⟩
  | .cmpWLit _ => ⟨0xFF00, 0x7900⟩
  | .subWLit _ => ⟨0xFF00, 0x7A00⟩
  | .addWLit _ => ⟨0xFF00, 0x7B00⟩
  | .movWLit _ => ⟨0xFF00, 0x7C00⟩
  | .orWLit _ => ⟨0xFF00, 0x7D00⟩
  | .andWLit _ => ⟨0xFF00, 0x7E00⟩
  | .xorWLit _ => ⟨0xFF00, 0x7F00⟩
  | .clrbFrBit _ _ => ⟨0xF000, 0x8000⟩
  | .setbFrBit _ _ => ⟨0xF000, 0x9000⟩
  | .snbFrBit _ _ => ⟨0xF000, 0xA000⟩
  | .sbFrBit _ _ => ⟨0xF000, 0xB000⟩
  | .call _ => ⟨0xE000, 0xC000⟩
  | .jmp _ => ⟨0xE000, 0xE000⟩
  | .nop => ⟨0xFFFF, 0x0000⟩
  | .brk => ⟨0xFFFF, 0x0001⟩
  | .retnp => ⟨0xFFFF, 0x0002⟩
  | .ferase => ⟨0xFFFF, 0x0003⟩
  | .cwdt => ⟨0xFFFF, 0x0004⟩
  | .brkx => ⟨0xFFFF, 0x0005⟩
  | .int => ⟨0xFFFF, 0x0006⟩
  | .ret => ⟨0xFFFF, 0x0007⟩
  | .reti _ => ⟨0xFFF8, 0x0008⟩
  | .page _ => ⟨0xFFF8, 0x0010⟩
  | .iwrite => ⟨0xFFFF, 0x0018⟩
  | .iread => ⟨0xFFFF, 0x0019⟩
  | .fwrite => ⟨0xFFFF, 0x001A⟩
  | .fread => ⟨0xFFFF, 0x001B⟩
  | .iwritei => ⟨0xFFFF, 0x001C⟩
  | .ireadi => ⟨0xFFFF, 0x001D⟩
  | .speed _ => ⟨0xFF00, 0x0100⟩

end Sys2Proof
end

