-- ==== Sys2Proof/Config.lean ====
section
/-! DEFINITION. The free values of the model: constants with no body, one for every value or choice that
the spec leaves open while the machine goes on. Nothing can be proved of any of them, so a statement
holds for every behaviour. The argument `time` is the state's count of instruction boundaries. -/

namespace Sys2Proof

/-- The causes of a reset (70_reset_and_hazards.md R320). -/
inductive ResetCause where
  | powerOn
  | watchdog
  | brownOut
  | other
  deriving DecidableEq, Repr

namespace Config

/-- FREE VALUE (log entries 10, 11). What a read of a register that is only named returns: a peripheral
register (92_eei_decisions.md D36: "a read is a draw") or IPCH, IPCL, CALLH, CALLL. -/
opaque platformRead : Word → Nat → Byte

/-- FREE VALUE (log entry 15). DATAH || DATAL between the issue and the completion of a non-blocking
read (46_system_control.md R252: "unspecified values"). -/
opaque pendingData : Nat → Word

/-- FREE VALUE (log entry 16). The flash word left by `fwrite` on a word that is not erased
(46_system_control.md R256). -/
opaque rewrittenWord : Nat → Word

/-- FREE VALUE (log entry 13). The word the platform supplies when a read of external memory completes
(46_system_control.md R257). -/
opaque externalWord : ByteAddress → Nat → Word

/-- FREE CHOICE (log entry 13). Which ADDR values select external memory: in no source
(20_memory.md R87). -/
opaque externalWindow : ByteAddress → Bool

/-- FREE CHOICE (log entry 13). Which external memory is "external RAM", all that `iwrite` writes there (46_system_control.md R259): whether
that is the whole window `iread` reads is in no source (20_memory.md R87). -/
opaque externalRam : ByteAddress → Bool

/-- FREE CHOICE (log entry 14). FLASH_LATENCY: how many boundaries pass before the operation issued now
completes; any finite number (46_system_control.md R252). -/
opaque flashLatency : Nat → Nat

/-- FREE CHOICE (log entry 17). The level of the interrupt request line after a boundary
(60_exceptions.md R281: "it may change between any two instructions"). -/
opaque irqLine : Nat → Bool

/-- FREE CHOICE (log entry 18). The clocks that reach the Timer 0 prescaler between two instructions. -/
opaque timer0Clocks : Nat → Nat

/-- FREE CHOICE (log entry 18). The Timer 0 prescaler setting, less one (60_exceptions.md R303, R305: "the
prescaler setting is unknown"). -/
opaque timer0Scale : Nat → Byte

/-- FREE CHOICE (log entry 19). WDT_ENABLED, fixed for a run (60_exceptions.md R301). -/
opaque watchdogEnabled : Bool

/-- FREE CHOICE (log entry 19). WDT_PERIOD, in counts of the watchdog counter (60_exceptions.md R301). -/
opaque watchdogPeriod : Nat

/-- FREE CHOICE (log entry 19). The clocks that reach the watchdog prescaler between two instructions. -/
opaque watchdogClocks : Nat → Nat

/-- FREE CHOICE (log entry 19). The watchdog prescaler's setting, less one. -/
opaque watchdogScale : Nat

/-- FREE CHOICE (log entry 20). A reset requested at a boundary by anything but the watchdog
(70_reset_and_hazards.md R320). -/
opaque resetEvent : Nat → Option ResetCause

/-- FREE VALUE (log entry 21). WD_AFTER_WDT_RESET (60_exceptions.md R302). -/
opaque wdAfterWatchdogReset : Bool

/-- FREE VALUE (log entry 21). BO_AFTER_BROWNOUT (60_exceptions.md R306). -/
opaque boAfterBrownOut : Bool

end Config

end Sys2Proof
end

