-- ==== Sys2Proof/Machine/Layout.lean ====
section
/-! DEFINITION. The layout. What the spec fixes, and the values at reset that the model names, are constants. What the spec leaves to
the machine at hand (00_scope.md R5: "the parameters a model must take as arguments") is `Params`; the spec's defaults for it are
`Machine.Params.family`. -/

namespace Sys2Proof.Layout

/-! ### Printed register addresses (10_state.md R41) -/

/-- IPH (R27, R41). -/
def addrIph : Word := 0x004
/-- IPL (R27, R41). -/
def addrIpl : Word := 0x005
/-- SPH (R29, R41). -/
def addrSph : Word := 0x006
/-- SPL (R29, R41). -/
def addrSpl : Word := 0x007
/-- PCL, the virtual register (R23, R41). -/
def addrPcl : Word := 0x009
/-- STATUS (R25, R41). -/
def addrStatus : Word := 0x00B
/-- DPH (R28, R41). -/
def addrDph : Word := 0x00C
/-- DPL (R28, R41). -/
def addrDpl : Word := 0x00D

/-- S1RCFG, a SERDES register: printed, and a platform device (R41, 00_scope.md R4). -/
def addrS1rcfg : Word := 0x068

/-! ### Data memory bounds (10_state.md R40) -/

/-- The first address that is plain storage: the global registers begin here (R40). -/
def dataBase : Nat := 0x080
/-- One past the last data address (R40). -/
def dataEnd : Nat := 0x1000
/-- The lowest effective address an offset operand may have (30_encoding.md R104). -/
def offsetFloor : Nat := 0x20

/-! ### Program-memory sizes (00_scope.md R5) -/

/-- Words of program RAM, 8K (R5). -/
def pramWords : Nat := 0x2000
/-- Words of flash, 32K (R5). -/
def flashWords : Nat := 0x8000
/-- Words of a flash erase block (R5, 46_system_control.md R254). -/
def eraseBlockWords : Nat := 256

/-! ### The call stack -/

/-- CS_DEPTH (10_state.md R34). -/
def callStackDepth : Nat := 16

/-! ### What an unlisted byte reads as, and values at reset -/

/-- An unlisted byte of data memory or program RAM. DESIGN CHOICE (log entry 7). -/
def unlistedRam : Byte := 0x00
/-- An unlisted byte of flash: a byte of the erased word. PRESUMED (log entry 8). -/
def unlistedFlash : Byte := 0xFF
/-- STATUS after reset: the page bits name the reset vector's page. PRESUMED (log entry 6). -/
def resetStatus : Byte := 0xE0
/-- SPDREG after reset. PRESUMED (log entry 6). -/
def resetSpdreg : Byte := 0x93
/-- Every other register after reset. PRESUMED (log entry 6). -/
def resetByte : Byte := 0x00

end Sys2Proof.Layout

namespace Sys2Proof.Machine

/-- Where a control bit lies: GIE_REG and GIE_BIT, INT_EN_REG and INT_EN_BIT (10_state.md R38), the register by its address. -/
structure BitPlace where
  address : Word
  bit : Fin 8
  deriving DecidableEq, Repr

/-- The OPEN parameters of 00_scope.md R5 that say where things are. A machine has one set of them, held in its state, and no step changes
it (log entry 45). What they must satisfy is `Params.wf`. -/
structure Params where
  /-- ADDR_ADDRSEL. -/
  addrAddrsel : Word
  /-- ADDR_ADDRX. -/
  addrAddrx : Word
  /-- ADDR_PCH. -/
  addrPch : Word
  /-- ADDR_WREG (R21). -/
  addrWreg : Word
  /-- ADDR_SPDREG. -/
  addrSpdreg : Word
  /-- ADDR_MULH (R30). -/
  addrMulh : Word
  /-- ADDR_ADDRH. -/
  addrAddrh : Word
  /-- ADDR_ADDRL. -/
  addrAddrl : Word
  /-- ADDR_DATAH. -/
  addrDatah : Word
  /-- ADDR_DATAL. -/
  addrDatal : Word
  /-- ADDR_INTVECH (R35). -/
  addrIntvech : Word
  /-- ADDR_INTVECL (R35). -/
  addrIntvecl : Word
  /-- ADDR_INTSPD (R37). -/
  addrIntspd : Word
  /-- ADDR_FCFG. -/
  addrFcfg : Word
  /-- ADDR_TCTRL. -/
  addrTctrl : Word
  /-- ADDR_XCFG (R38). -/
  addrXcfg : Word
  /-- ADDR_IPCH. -/
  addrIpch : Word
  /-- ADDR_IPCL. -/
  addrIpcl : Word
  /-- ADDR_T0TMR (60_exceptions.md R303). -/
  addrT0tmr : Word
  /-- ADDR_CALLH. -/
  addrCallh : Word
  /-- ADDR_CALLL. -/
  addrCalll : Word
  /-- PRAM_BASE_W, the first word of program RAM (20_memory.md R74). -/
  pramBase : Word
  /-- PRAM_END_W, its last word (20_memory.md R74). -/
  pramEnd : Word
  /-- FLASH_BASE_W, the first word of flash (20_memory.md R74). -/
  flashBase : Word
  /-- FLASH_END_W, its last word (20_memory.md R74). -/
  flashEnd : Word
  /-- FLASH_ERASED_WORD (46_system_control.md R254). -/
  erasedWord : Word
  /-- RESET_VECTOR_W, a word address in flash (70_reset_and_hazards.md R321). -/
  resetVector : Word
  /-- XCFG_FBUSY_BIT (10_state.md R38). -/
  fbusyBit : Fin 8
  /-- GIE_REG and GIE_BIT (10_state.md R38). -/
  gie : BitPlace
  /-- INT_EN_REG and INT_EN_BIT (10_state.md R38). -/
  intEn : BitPlace
  deriving DecidableEq, Repr

/-- The spec's defaults (93_implementation_defined.md G2 to G5, G11; log entries 2, 3, 4, 8), PRESUMED; FBUSY's and INT_EN's bits, for which
the spec has no default, are the family's, PRESUMED (log entry 5). -/
def Params.family : Params :=
  { addrAddrsel := 0x002, addrAddrx := 0x003, addrPch := 0x008, addrWreg := 0x00A,
    addrSpdreg := 0x00E, addrMulh := 0x00F, addrAddrh := 0x010, addrAddrl := 0x011,
    addrDatah := 0x012, addrDatal := 0x013, addrIntvech := 0x014, addrIntvecl := 0x015,
    addrIntspd := 0x016, addrFcfg := 0x01A, addrTctrl := 0x01B, addrXcfg := 0x01C,
    addrIpch := 0x01E, addrIpcl := 0x01F, addrT0tmr := 0x042, addrCallh := 0x07E,
    addrCalll := 0x07F,
    pramBase := 0x0000, pramEnd := 0x1FFF, flashBase := 0x8000, flashEnd := 0xFFFF, erasedWord := 0xFFFF, resetVector := 0xFFF0,
    fbusyBit := 0, gie := { address := 0x01C, bit := 7 }, intEn := { address := 0x01C, bit := 3 } }

end Sys2Proof.Machine
end

