-- ==== Sys2Proof/Machine/State.lean ====
section
/-! DEFINITION. The state of the machine as plain data, the reasons a step can stop, and the state after reset.
Every field names the rule of spec/ that gives it; INVENTORY.md lists them with their reset values. -/

namespace Sys2Proof.Machine

/-- Memory as address and byte pairs in canonical form: addresses strictly rising, no entry equal to what
an unlisted address reads as (`Memory.wf`). Data memory is keyed by data address, program RAM and flash by
byte address. -/
abbrev Memory := List Host.Cell

/-- Why the machine stops. The spec has no hardware exception (60_exceptions.md R280): each constructor is one
of its `raise Undefined` (the manual forbids it) or `raise Unspecified` (no source says what happens), which
a model maps to a fault, never to a value (00_scope.md R8). Stopping is SAFE in every case: nothing is claimed of
what the hardware does there. -/
inductive Fault where
  /-- Undefined. Raised by an `offset(dp)` or `offset(sp)` operand below 0x20 (30_encoding.md R104). Safe. -/
  | offsetBelow20
  /-- Undefined. Raised by a fetch or read of flash while FBUSY = 1 (20_memory.md R76, R78). Safe. -/
  | flashAccessWhileBusy
  /-- Undefined. Raised by `ferase`, `fread`, `fwrite` while FBUSY = 1 (46_system_control.md R253). Safe. -/
  | flashInstructionWhileBusy
  /-- Undefined. Raised by `ferase`, `fread`, `fwrite` fetched from flash (46_system_control.md R253). Safe. -/
  | flashInstructionFromFlash
  /-- Unspecified. Raised by an access to data address 0x000 (10_state.md R40). Safe. -/
  | dataAddressZero
  /-- Unspecified. Raised by an access to a data address above 0xFFF (10_state.md R40). Safe. -/
  | dataAddressBeyond4K
  /-- Unspecified. Raised by `add pcl,w` when the sum carries (10_state.md R23). Safe. -/
  | pclCarry
  /-- Unspecified. Raised by a count-and-skip form whose destination is PCL (10_state.md R23,
  42_compare_skip.md R194). Safe. -/
  | skipOnPcl
  /-- Unspecified. Raised by a file-register write to PCH, SPDREG, XCFG, FCFG, TCTRL, IPCH, IPCL, CALLH or CALLL (10_state.md R43,
  93_implementation_defined.md U25). Safe. -/
  | unwritableRegister
  /-- Unspecified. Raised by a file-register write to XCFG that would change FBUSY (10_state.md R38, R43). Safe. -/
  | fbusyReadOnly
  /-- Unspecified. Raised by a file-register write that would change WD or BO (10_state.md R25). Safe. -/
  | statusWdBo
  /-- Unspecified. Raised by a flag-writing instruction whose `fr` destination is STATUS (10_state.md R26). Safe. -/
  | flagWriterTargetsStatus
  /-- Unspecified. Raised by a fetch or read of a program address in neither program RAM nor flash
  (20_memory.md R76, R78; 46_system_control.md R257). Safe. -/
  | unbackedProgramAddress
  /-- Unspecified. Raised by a program-memory access with ADDRL[0] = 1 (20_memory.md R80). Safe. -/
  | oddAddr
  /-- Unspecified. Raised by `call` with 16 entries in use (10_state.md R34). Safe. -/
  | callStackOverflow
  /-- Unspecified. Raised by a return with nothing pushed (10_state.md R34). Safe. -/
  | callStackUnderflow
  /-- Unspecified. Raised by `pop` to an operand that depends on SP (44_data_movement.md R225). Safe. -/
  | popDependsOnSp
  /-- Unspecified. Raised by `reti` with no interrupt taken (60_exceptions.md R287). Safe. -/
  | retiOutsideInterrupt
  /-- Unspecified. Raised by interrupt entry inside an interrupt routine (60_exceptions.md R291). Safe. -/
  | nestedInterrupt
  /-- Unspecified. Raised by `ferase` with ADDRH[0] = 1 (46_system_control.md R254). Safe. -/
  | eraseBlockUnaligned
  /-- Unspecified. Raised by `iread`, `ireadi`, `iwrite`, `iwritei` while FBUSY = 1 (46_system_control.md R253). Safe. -/
  | programAccessWhileBusy
  /-- Unspecified. Raised by `ireadi`, `iwritei` when ADDRL + 2 carries (46_system_control.md R258, R260). Safe. -/
  | addrlCarry
  /-- Unspecified. Raised by a write of the program word at pc + 1 or pc + 2 (20_memory.md R88). Safe. -/
  | writesPrefetchedWord
  /-- Unspecified. Raised by `ireadi` outside program RAM and flash (46_system_control.md R258). Safe. -/
  | ireadiOutside
  /-- Unspecified. Raised by `iwritei` outside program RAM (46_system_control.md R260). Safe. -/
  | iwriteiOutside
  /-- Unspecified. Raised by a skip whose extenders never end (30_encoding.md R110: the loop may be bounded). Safe. -/
  | skipUnbounded
  deriving DecidableEq, Repr

/-- No meaning for the fetched word. -/
inductive Refusal where
  /-- Raised by `exec` for an instruction that has no meaning yet. Safe. No arm raises it. -/
  | notModelled (mnemonic : String)
  /-- Raised by the step when the fetched word is unassigned (30_encoding.md R109: `Unspecified("unassigned opcode")`).
  Safe. -/
  | unassignedOpcode (why : DecodeReject)
  deriving DecidableEq, Repr

/-- The special-purpose registers an address can name (10_state.md R41, R44). -/
inductive Register where
  | addrsel | addrx | iph | ipl | sph | spl | pch | pcl | wreg | status | dph | dpl | spdreg | mulh
  | addrh | addrl | datah | datal | intvech | intvecl | intspd | fcfg | tctrl | xcfg
  | ipch | ipcl | callh | calll | t0tmr
  /-- Any other address in 0x01..0x7F: a platform device (00_scope.md R4). -/
  | platform
  deriving DecidableEq, Repr

/-- The shadow set: the fourteen saved items (10_state.md R36). -/
structure Shadow where
  pc : Word
  w : Byte
  status : Byte
  mulh : Byte
  spdreg : Byte
  iph : Byte
  ipl : Byte
  dph : Byte
  dpl : Byte
  sph : Byte
  spl : Byte
  addrsel : Byte
  datah : Byte
  datal : Byte
  deriving DecidableEq, Repr

/-- What a non-blocking operation does (46_system_control.md R252). -/
inductive FlashKind where
  | erase
  | fread
  | fwrite
  | ireadFlash
  | extRead
  | extWrite
  deriving DecidableEq, Repr

/-- The controller's one slot (46_system_control.md R252): the kind, the address and data latched at issue, and the
boundaries left before it completes (FLASH_LATENCY, log entry 14). -/
structure FlashOp where
  kind : FlashKind
  addr : ByteAddress
  data : Word
  wait : Nat
  deriving DecidableEq, Repr

/-- The whole state. -/
structure State where
  /-- The working register (10_state.md R20). -/
  w : Byte
  /-- The word address of the next instruction (10_state.md R22). -/
  pc : Word
  /-- PA2:0, WD, BO, Z, DC, C (10_state.md R25). -/
  status : Byte
  /-- Upper half of IP (10_state.md R27). -/
  iph : Byte
  /-- Lower half of IP (10_state.md R27). -/
  ipl : Byte
  /-- Upper half of DP (10_state.md R28). -/
  dph : Byte
  /-- Lower half of DP (10_state.md R28). -/
  dpl : Byte
  /-- Upper half of SP (10_state.md R29). -/
  sph : Byte
  /-- Lower half of SP (10_state.md R29). -/
  spl : Byte
  /-- High byte of a product (10_state.md R30). -/
  mulh : Byte
  /-- Speed and power control, stored only (10_state.md R31). -/
  spdreg : Byte
  /-- Bits 23:16 of ADDR (10_state.md R32). -/
  addrx : Byte
  /-- Bits 15:8 of ADDR (10_state.md R32). -/
  addrh : Byte
  /-- Bits 7:0 of ADDR (10_state.md R32). -/
  addrl : Byte
  /-- Bits 15:8 of DATA (10_state.md R32). -/
  datah : Byte
  /-- Bits 7:0 of DATA (10_state.md R32). -/
  datal : Byte
  /-- Saved and restored, otherwise plain storage (10_state.md R33). -/
  addrsel : Byte
  /-- High byte of the interrupt vector (10_state.md R35). -/
  intvech : Byte
  /-- Low byte of the interrupt vector (10_state.md R35). -/
  intvecl : Byte
  /-- The speed loaded on interrupt entry (10_state.md R37). -/
  intspd : Byte
  /-- XCFG, but for FBUSY, and for GIE and INT_EN where they lie here: those bits are kept apart (10_state.md R38). -/
  xcfg : Byte
  /-- FCFG, named only; GIE and INT_EN are kept apart (10_state.md R38, R42). -/
  fcfg : Byte
  /-- TCTRL, named only; GIE and INT_EN are kept apart (10_state.md R38, R42). -/
  tctrl : Byte
  /-- GIE, which a program reads and writes at GIE_REG (10_state.md R38, 60_exceptions.md R282). -/
  gie : Bool
  /-- INT_EN, which a program reads and writes at INT_EN_REG (10_state.md R38, 60_exceptions.md R282). -/
  intEn : Bool
  /-- The hardware call stack, newest first; cs_depth is its length (10_state.md R34). -/
  callStack : List Word
  /-- The shadow set (10_state.md R36). -/
  shadow : Shadow
  /-- The spec's bookkeeping: an interrupt has been taken and not returned from (10_state.md R39). -/
  inIsr : Bool
  /-- The interrupt request line at this boundary (60_exceptions.md R281). -/
  irq : Bool
  /-- The pending controller operation; FBUSY is "not none" (46_system_control.md R252). -/
  flashOp : Option FlashOp
  /-- Break mode (60_exceptions.md R310). -/
  breakMode : Bool
  /-- The watchdog counter (60_exceptions.md R300). Its width is in no source (10_state.md R39, 60_exceptions.md R301): a number that
  never wraps. DESIGN CHOICE (log entry 19). -/
  wdtCounter : Nat
  /-- The watchdog prescaler (60_exceptions.md R300). Its width is in no source either: a number below the scale.
  DESIGN CHOICE (log entry 19). -/
  wdtPrescaler : Nat
  /-- Timer 0's count (60_exceptions.md R303). -/
  t0tmr : Byte
  /-- Timer 0's prescaler (60_exceptions.md R303). -/
  t0Prescaler : Byte
  /-- A reset requested at this boundary (70_reset_and_hazards.md R320). -/
  resetRequest : Option ResetCause
  /-- Data memory 0x080..0xFFF (10_state.md R40). -/
  data : Memory
  /-- Program RAM by byte address (20_memory.md R74). -/
  pram : Memory
  /-- Program flash by byte address (20_memory.md R74). -/
  flash : Memory
  /-- THE MODEL'S OWN PLACE for the OPEN parameters of 00_scope.md R5, which are no state of the machine: no step changes them
  (log entry 45). -/
  params : Params
  /-- THE MODEL'S OWN: instruction boundaries passed, the argument of the free values (log entry 36). -/
  time : Nat
  deriving DecidableEq, Repr

/-- The shadow set after reset: unspecified in the spec. DESIGN CHOICE (log entry 37). -/
def Shadow.reset : Shadow :=
  { pc := 0, w := 0, status := 0, mulh := 0, spdreg := 0, iph := 0, ipl := 0, dph := 0, dpl := 0, sph := 0, spl := 0,
    addrsel := 0, datah := 0, datal := 0 }

/-- The machine right after reset: the values of 10_state.md R46 (INTVECH, INTVECL, call stack, in_isr, flash_op, GIE,
break_mode), for everything R46 leaves unspecified the values of log entries 6, 7, 8, 17 to 20, 36 and 37, and the parameters at their defaults
(log entry 45). -/
def State.reset : State :=
  { w := Layout.resetByte, pc := Params.family.resetVector, status := Layout.resetStatus,
    iph := Layout.resetByte, ipl := Layout.resetByte, dph := Layout.resetByte, dpl := Layout.resetByte,
    sph := Layout.resetByte, spl := Layout.resetByte, mulh := Layout.resetByte, spdreg := Layout.resetSpdreg,
    addrx := Layout.resetByte, addrh := Layout.resetByte, addrl := Layout.resetByte,
    datah := Layout.resetByte, datal := Layout.resetByte, addrsel := Layout.resetByte,
    intvech := 0x00, intvecl := 0x00, intspd := Layout.resetByte,
    xcfg := Layout.resetByte, fcfg := Layout.resetByte, tctrl := Layout.resetByte, gie := false, intEn := false,
    callStack := [], shadow := Shadow.reset, inIsr := false, irq := false, flashOp := none, breakMode := false,
    wdtCounter := 0, wdtPrescaler := 0, t0tmr := Layout.resetByte, t0Prescaler := 0, resetRequest := none,
    data := [], pram := [], flash := [], params := Params.family, time := 0 }

end Sys2Proof.Machine
end

