-- ==== Sys2Proof/Machine/Flags.lean ====
section
/-! DEFINITION. STATUS by its fields (10_state.md R25) and every flag computation of the spec: addition R150, subtraction R151,
zero R26, rotates R171 to R174. A result says which flags it writes, as the table of 10_state.md R26 does. -/

namespace Sys2Proof.Machine

/-! ### Fields of STATUS (10_state.md R25) -/

/-- C, bit 0. -/
def State.carry (s : State) : Bool := s.status.getLsbD 0
/-- DC, bit 1. -/
def State.digitCarry (s : State) : Bool := s.status.getLsbD 1
/-- Z, bit 2. -/
def State.zero (s : State) : Bool := s.status.getLsbD 2
/-- BO, bit 3. -/
def State.brownOut (s : State) : Bool := s.status.getLsbD 3
/-- WD, bit 4. -/
def State.watchdogTimeout (s : State) : Bool := s.status.getLsbD 4
/-- PA2:0, bits 7:5. -/
def State.page (s : State) : BitVec 3 := s.status.extractLsb' 5 3

/-- STATUS with PA2:0 replaced and bits 4:0 kept (46_system_control.md R263). -/
def withPage (status : Byte) (p : BitVec 3) : Byte := p ++ status.extractLsb' 0 5

/-! ### Results with flags -/

/-- An 8-bit result and the flags an instruction writes with it; `none` is a flag it leaves alone (10_state.md R26). -/
structure AluResult where
  value : Byte
  c : Option Bool
  dc : Option Bool
  z : Option Bool
  deriving DecidableEq, Repr

/-- The instruction is a flag writer in the sense of 10_state.md R26. -/
def AluResult.writesFlags (r : AluResult) : Bool := r.c.isSome || r.dc.isSome || r.z.isSome

/-- One flag of STATUS written, or left alone. -/
def setFlag (status : Byte) (i : Nat) : Option Bool → Byte
  | some b => setBit status i b
  | none => status

/-- STATUS after the flags of a result are written. -/
def AluResult.statusAfter (r : AluResult) (status : Byte) : Byte :=
  setFlag (setFlag (setFlag status 0 r.c) 1 r.dc) 2 r.z

/-- A result that writes no flag. -/
def noFlags (v : Byte) : AluResult := { value := v, c := none, dc := none, z := none }

/-- A result that writes Z only: Z = 1 iff the 8-bit result is 0x00 (10_state.md R26). -/
def zeroFlag (v : Byte) : AluResult := { value := v, c := none, dc := none, z := some (v == 0) }

/-- A result that writes C only: the bit shifted out (10_state.md R26). -/
def carryFlag (v : Byte) (c : Bool) : AluResult := { value := v, c := some c, dc := none, z := none }

/-- AddFlags(a, b, cin) (41_arithmetic_shift.md R150), on unbounded integers and narrowed at the end. -/
def addFlags (a b : Byte) (cin : Bool) : AluResult :=
  let s := a.toNat + b.toNat + cin.toNat
  let r := BitVec.ofNat 8 s
  { value := r
    c := some (decide (0xFF < s))
    dc := some (decide (0xF < a.toNat % 16 + b.toNat % 16 + cin.toNat))
    z := some (r == 0) }

/-- SubFlags(m, w, bin) (41_arithmetic_shift.md R151), on unbounded integers: C and DC are inverted borrows. -/
def subFlags (m w : Byte) (bin : Bool) : AluResult :=
  let d : Int := (m.toNat : Int) - w.toNat - bin.toNat
  let r := BitVec.ofInt 8 d
  { value := r
    c := some (decide (0 ≤ d))
    dc := some (decide (0 ≤ ((m.toNat % 16 : Nat) : Int) - ((w.toNat % 16 : Nat) : Int) - bin.toNat))
    z := some (r == 0) }

/-- The 9-bit rotate left through C (41_arithmetic_shift.md R171). -/
def rotateLeft (v : Byte) (c : Bool) : AluResult :=
  carryFlag (v.extractLsb' 0 7 ++ BitVec.ofBool c) (v.getLsbD 7)

/-- The 9-bit rotate right through C (41_arithmetic_shift.md R173). -/
def rotateRight (v : Byte) (c : Bool) : AluResult :=
  carryFlag (BitVec.ofBool c ++ v.extractLsb' 1 7) (v.getLsbD 0)

/-- The 16-bit product of two signed bytes (41_arithmetic_shift.md R177). -/
def signedProduct (a b : Byte) : Word := BitVec.ofInt 16 (a.toInt * b.toInt)

/-- The 16-bit product of two unsigned bytes (41_arithmetic_shift.md R179). -/
def unsignedProduct (a b : Byte) : Word := BitVec.ofNat 16 (a.toNat * b.toNat)

end Sys2Proof.Machine
end

