-- ==== Sys2Proof/Machine/Memory.lean ====
section
/-! DEFINITION. Memory as a canonical list of cells: one read, one write, the program words built from bytes in one
place, and the erase of a block. `blank` is what an unlisted address reads as. -/

namespace Sys2Proof.Machine

/-- The canonical form: addresses strictly rising, no entry equal to the blank byte. -/
abbrev Memory.wf (blank : Byte) (m : Memory) : Prop :=
  m.Pairwise (fun x y => x.1 < y.1) ∧ ∀ c ∈ m, c.2 ≠ blank

/-- Every listed address is in `lo ≤ a < hi`. -/
abbrev Memory.within (lo hi : Nat) (m : Memory) : Prop :=
  ∀ c ∈ m, lo ≤ c.1 ∧ c.1 < hi

/-- Read one byte (00_scope.md R7 `MemRead(addr, 1)`). -/
def memRead (blank : Byte) : Memory → Nat → Byte
  | [], _ => blank
  | (k, v) :: rest, a => if k = a then v else memRead blank rest a

/-- Write one byte, keeping the canonical form (00_scope.md R7 `MemWrite(addr, 1, v)`). -/
def memWrite (blank : Byte) : Memory → Nat → Byte → Memory
  | [], a, v => if v = blank then [] else [(a, v)]
  | (k, u) :: rest, a, v =>
    if a < k then
      if v = blank then (k, u) :: rest else (a, v) :: (k, u) :: rest
    else if k = a then
      if v = blank then rest else (a, v) :: rest
    else (k, u) :: memWrite blank rest a v

/-- Read a program word: the high byte at the even byte address (20_memory.md R79). -/
def wordRead (blank : Byte) (m : Memory) (wa : Word) : Word :=
  joinBytes (memRead blank m (2 * wa.toNat)) (memRead blank m (2 * wa.toNat + 1))

/-- Write a program word: the high byte at the even byte address (20_memory.md R79). -/
def wordWrite (blank : Byte) (m : Memory) (wa v : Word) : Memory :=
  memWrite blank (memWrite blank m (2 * wa.toNat) (hiByte v)) (2 * wa.toNat + 1) (loByte v)

/-- Set `n` words of flash from `wa` on to the erased word (46_system_control.md R254). -/
def eraseWords (erased : Word) (m : Memory) (wa : Word) : Nat → Memory
  | 0 => m
  | n + 1 => wordWrite Layout.unlistedFlash (eraseWords erased m wa n) (wa + BitVec.ofNat 16 n) erased

end Sys2Proof.Machine
end

