-- ==== Sys2Proof/Machine/Ops.lean ====
section
/-! DEFINITION. The named operations over registers and memory: the register pairs, the control bits, program-memory
reads and writes, the file-register read and write of 10_state.md R42 and R43, the call stack, the skip, the controller,
taking an interrupt and returning from one. Reads are functions of the state before the instruction; writes apply to
a state whose pc already is the address of the next instruction (10_state.md R47: `next`). -/

namespace Sys2Proof.Machine

/-- An operation's result as an outcome of the step. -/
def settle : Except Fault State → Host.Outcome State Fault Refusal
  | .ok t => .next t
  | .error e => .fault e

/-! ### The program counter -/

/-- The pc at the address of the next instruction, `(pc + 1) mod 2^16` (10_state.md R22, R24). -/
def State.advance (s : State) : State := { s with pc := s.pc + 1 }

/-! ### Register pairs (00_scope.md R7) -/

/-- IP = IPH || IPL. -/
def State.ip (s : State) : Word := joinBytes s.iph s.ipl
/-- DP = DPH || DPL. -/
def State.dp (s : State) : Word := joinBytes s.dph s.dpl
/-- SP = SPH || SPL. -/
def State.sp (s : State) : Word := joinBytes s.sph s.spl
/-- ADDR = ADDRX || ADDRH || ADDRL, a byte address. -/
def State.addr (s : State) : ByteAddress := s.addrx ++ s.addrh ++ s.addrl
/-- DATA = DATAH || DATAL. -/
def State.dataWord (s : State) : Word := joinBytes s.datah s.datal
/-- INTVECH || INTVECL. -/
def State.intvec (s : State) : Word := joinBytes s.intvech s.intvecl

/-- SP written as a pair. -/
def State.setSp (s : State) (v : Word) : State := { s with sph := hiByte v, spl := loByte v }
/-- DATA written as a pair. -/
def State.setData (s : State) (v : Word) : State := { s with datah := hiByte v, datal := loByte v }
/-- MULH || W written with a product (10_state.md R30). -/
def State.setProduct (s : State) (p : Word) : State := { s with mulh := hiByte p, w := loByte p }
/-- The interrupt vector written as a pair. -/
def State.setIntvec (s : State) (v : Word) : State := { s with intvech := hiByte v, intvecl := loByte v }
/-- PA2:0 written. -/
def State.setPage (s : State) (p : BitVec 3) : State := { s with status := withPage s.status p }
/-- The flags of a result written. -/
def State.setFlags (s : State) (r : AluResult) : State := { s with status := r.statusAfter s.status }

/-! ### SPDREG by its fields (10_state.md R31); the codes are in no source -/

/-- PWRD1:0. -/
def State.pwrd (s : State) : BitVec 2 := s.spdreg.extractLsb' 6 2
/-- CLK1:0. -/
def State.clk (s : State) : BitVec 2 := s.spdreg.extractLsb' 4 2
/-- CDIV3:0. -/
def State.cdiv (s : State) : BitVec 4 := s.spdreg.extractLsb' 0 4

/-! ### The control bits (10_state.md R38); their places are parameters -/

/-- FBUSY = (flash_op != none) (46_system_control.md R252). -/
def State.fbusy (s : State) : Bool := s.flashOp.isSome

/-- The byte at address `a` with its bit set to `b` where the place is there. -/
def BitPlace.put (p : BitPlace) (a : Word) (b : Bool) (v : Byte) : Byte :=
  if p.address = a then setBit v p.bit b else v

/-- The bit once byte `v` is written at address `a`: taken from `v` where the place is there, else as it was. -/
def BitPlace.take (p : BitPlace) (a : Word) (v : Byte) (b : Bool) : Bool :=
  if p.address = a then v.getLsbD p.bit else b

/-- A byte read at address `a`, with GIE and INT_EN in it where they lie there. -/
def State.putControlBits (s : State) (a : Word) (v : Byte) : Byte :=
  s.params.intEn.put a s.intEn (s.params.gie.put a s.gie v)

/-- GIE and INT_EN after a file-register write of `v` at address `a` (60_exceptions.md R282: "software sets or clears them by
ordinary file-register writes to that location"). -/
def State.takeControlBits (s : State) (a : Word) (v : Byte) : State :=
  { s with gie := s.params.gie.take a v s.gie, intEn := s.params.intEn.take a v s.intEn }

/-- XCFG but for GIE and INT_EN: the stored bits with FBUSY in its place. -/
def State.xcfgView (s : State) : Byte := setBit s.xcfg s.params.fbusyBit s.fbusy

/-- The reason a file-register write to XCFG stops (10_state.md R43): it would change FBUSY (R38), or the register takes no write. -/
def xcfgWriteFault (v : Byte) (s : State) : Fault :=
  if v.getLsbD s.params.fbusyBit = s.fbusy then .unwritableRegister else .fbusyReadOnly

/-! ### Program memory (20_memory.md R74 to R80) -/

/-- The word address is in program RAM (R74). -/
def Params.inPram (p : Params) (wa : Word) : Bool :=
  decide (p.pramBase.toNat ≤ wa.toNat ∧ wa.toNat ≤ p.pramEnd.toNat)
/-- The word address is in flash (R74). -/
def Params.inFlash (p : Params) (wa : Word) : Bool :=
  decide (p.flashBase.toNat ≤ wa.toNat ∧ wa.toNat ≤ p.flashEnd.toNat)

/-- The program-RAM word at a word address. -/
def State.pramWord (s : State) (wa : Word) : Word := wordRead Layout.unlistedRam s.pram wa
/-- The flash word at a word address. -/
def State.flashWord (s : State) (wa : Word) : Word := wordRead Layout.unlistedFlash s.flash wa

/-- PMemRead(wa) (20_memory.md R76). -/
def pmemRead (s : State) (wa : Word) : Except Fault Word :=
  if s.params.inPram wa then .ok (s.pramWord wa)
  else if s.params.inFlash wa then
    if s.fbusy then .error .flashAccessWhileBusy else .ok (s.flashWord wa)
  else .error .unbackedProgramAddress

/-- PMemWrite(wa, v): program RAM only; anywhere else no operation (20_memory.md R77). -/
def pmemWrite (s : State) (wa v : Word) : State :=
  if s.params.inPram wa then { s with pram := wordWrite Layout.unlistedRam s.pram wa v } else s

/-- Instruction fetch (20_memory.md R78). -/
def fetch (s : State) : Except Fault Word := pmemRead s s.pc

/-- What an ADDR value selects (46_system_control.md R257). -/
inductive AddrRegion where
  | programRam
  | flash
  | external
  | unbacked
  deriving DecidableEq, Repr

/-- ADDR[16:1], the word address (20_memory.md R75). -/
def addrWord (a : ByteAddress) : Word := a.extractLsb' 1 16

/-- ADDR[23:17] = 0: the on-chip program space (20_memory.md R75). -/
def addrOnChip (a : ByteAddress) : Bool := a.extractLsb' 17 7 == 0

/-- The region of an ADDR value. External memory is an opaque window (log entry 13). -/
def Params.regionOf (p : Params) (a : ByteAddress) : AddrRegion :=
  if addrOnChip a && p.inPram (addrWord a) then .programRam
  else if addrOnChip a && p.inFlash (addrWord a) then .flash
  else if Config.externalWindow a then .external
  else .unbacked

/-! ### The file registers (10_state.md R40 to R43) -/

/-- The registers and their addresses: the printed ones first (10_state.md R41, R42), then those at the parameters ADDR_<reg> (R44). -/
def Params.registers (p : Params) : List (Word × Register) :=
  [(Layout.addrPcl, .pcl), (Layout.addrStatus, .status), (Layout.addrIph, .iph), (Layout.addrIpl, .ipl),
   (Layout.addrSph, .sph), (Layout.addrSpl, .spl), (Layout.addrDph, .dph), (Layout.addrDpl, .dpl),
   (p.addrWreg, .wreg), (p.addrMulh, .mulh), (p.addrAddrsel, .addrsel), (p.addrAddrx, .addrx),
   (p.addrAddrh, .addrh), (p.addrAddrl, .addrl), (p.addrDatah, .datah), (p.addrDatal, .datal),
   (p.addrIntvech, .intvech), (p.addrIntvecl, .intvecl), (p.addrIntspd, .intspd), (p.addrPch, .pch),
   (p.addrSpdreg, .spdreg), (p.addrXcfg, .xcfg), (p.addrFcfg, .fcfg), (p.addrTctrl, .tctrl),
   (p.addrIpch, .ipch), (p.addrIpcl, .ipcl), (p.addrCallh, .callh), (p.addrCalll, .calll), (p.addrT0tmr, .t0tmr)]

/-- The register at a special-purpose address: the first listed there, else a platform device (10_state.md R41 to R44). -/
def Params.registerAt (p : Params) (a : Word) : Register := (p.registers.lookup a).getD .platform

/-- The value a register at address `a` reads as (10_state.md R42). A platform register, and a register that is only
named, reads as a free value (log entries 10, 11). -/
def readRegister (r : Register) (a : Word) (s : State) : Byte :=
  match r with
  | .addrsel => s.addrsel
  | .addrx => s.addrx
  | .iph => s.iph
  | .ipl => s.ipl
  | .sph => s.sph
  | .spl => s.spl
  | .pch => hiByte (s.pc + 1)
  | .pcl => loByte (s.pc + 1)
  | .wreg => s.w
  | .status => s.status
  | .dph => s.dph
  | .dpl => s.dpl
  | .spdreg => s.spdreg
  | .mulh => s.mulh
  | .addrh => s.addrh
  | .addrl => s.addrl
  | .datah => s.datah
  | .datal => s.datal
  | .intvech => s.intvech
  | .intvecl => s.intvecl
  | .intspd => s.intspd
  | .fcfg => s.fcfg
  | .tctrl => s.tctrl
  | .xcfg => s.xcfgView
  | .ipch => Config.platformRead a s.time
  | .ipcl => Config.platformRead a s.time
  | .callh => Config.platformRead a s.time
  | .calll => Config.platformRead a s.time
  | .t0tmr => s.t0tmr
  | .platform => Config.platformRead a s.time

/-- A write of STATUS as a file register: WD and BO may not change (10_state.md R25). -/
def writeStatus (v : Byte) (s : State) : Except Fault State :=
  if (v ^^^ s.status) &&& 0x18 ≠ 0 then .error .statusWdBo else .ok { s with status := v }

/-- A write of a register (10_state.md R43), on a state whose pc is the next instruction's address, so that PCL keeps
`(pc + 1)[15:8]` (R23). A platform register drops the write (92_eei_decisions.md D36, log entry 10). -/
def writeRegister (r : Register) (v : Byte) (s : State) : Except Fault State :=
  match r with
  | .addrsel => .ok { s with addrsel := v }
  | .addrx => .ok { s with addrx := v }
  | .iph => .ok { s with iph := v }
  | .ipl => .ok { s with ipl := v }
  | .sph => .ok { s with sph := v }
  | .spl => .ok { s with spl := v }
  | .pch => .error .unwritableRegister
  | .pcl => .ok { s with pc := joinBytes (hiByte s.pc) v }
  | .wreg => .ok { s with w := v }
  | .status => writeStatus v s
  | .dph => .ok { s with dph := v }
  | .dpl => .ok { s with dpl := v }
  | .spdreg => .error .unwritableRegister
  | .mulh => .ok { s with mulh := v }
  | .addrh => .ok { s with addrh := v }
  | .addrl => .ok { s with addrl := v }
  | .datah => .ok { s with datah := v }
  | .datal => .ok { s with datal := v }
  | .intvech => .ok { s with intvech := v }
  | .intvecl => .ok { s with intvecl := v }
  | .intspd => .ok { s with intspd := v }
  | .fcfg => .error .unwritableRegister
  | .tctrl => .error .unwritableRegister
  | .xcfg => .error (xcfgWriteFault v s)
  | .ipch => .error .unwritableRegister
  | .ipcl => .error .unwritableRegister
  | .callh => .error .unwritableRegister
  | .calll => .error .unwritableRegister
  | .t0tmr => .ok { s with t0tmr := v }
  | .platform => .ok s

/-- The file-register read `x[a]` (10_state.md R42), with GIE and INT_EN where they lie (R38). -/
def readFile (a : Word) (s : State) : Except Fault Byte :=
  if a = 0 then .error .dataAddressZero
  else if Layout.dataEnd ≤ a.toNat then .error .dataAddressBeyond4K
  else if Layout.dataBase ≤ a.toNat then .ok (memRead Layout.unlistedRam s.data a.toNat)
  else .ok (s.putControlBits a (readRegister (s.params.registerAt a) a s))

/-- The file-register write `x[a] <- v` (10_state.md R43); where it is accepted, GIE and INT_EN take their bits at their places
(60_exceptions.md R282). -/
def writeFile (a : Word) (v : Byte) (s : State) : Except Fault State :=
  if a = 0 then .error .dataAddressZero
  else if Layout.dataEnd ≤ a.toNat then .error .dataAddressBeyond4K
  else if Layout.dataBase ≤ a.toNat then .ok { s with data := memWrite Layout.unlistedRam s.data a.toNat v }
  else (writeRegister (s.params.registerAt a) v s).map (·.takeControlBits a v)

/-! ### The hardware call stack (10_state.md R34) -/

/-- cs_push(v). -/
def callPush (v : Word) (s : State) : Except Fault State :=
  if Layout.callStackDepth ≤ s.callStack.length then .error .callStackOverflow
  else .ok { s with callStack := v :: s.callStack }

/-- cs_pop(): the top, and the state without it. -/
def callPop (s : State) : Except Fault (Word × State) :=
  match s.callStack with
  | [] => .error .callStackUnderflow
  | t :: rest => .ok (t, { s with callStack := rest })

/-! ### Skips (30_encoding.md R110, R111) -/

/-- `page`, `loadh`, `loadl` and `breakx` extend a skip. -/
def isExtender (w : Word) : Bool :=
  (w &&& 0xFFF8 == 0x0010) || (w &&& 0xFF00 == 0x7000) || (w &&& 0xFF00 == 0x7100) || (w == 0x0005)

/-- The walk over extenders from address `t`, with a bound on the words looked at. -/
def skipWalk (s : State) : Nat → Word → Except Fault Word
  | 0, _ => .error .skipUnbounded
  | n + 1, t =>
    match pmemRead s t with
    | .error e => .error e
    | .ok w => if isExtender w then skipWalk s n (t + 1) else .ok (t + 1)

/-- SkipTarget(pc). The bound is the whole program space, which no run of extenders fills (log entry 26). -/
def skipTarget (s : State) : Except Fault Word := skipWalk s 65536 (s.pc + 1)

/-- The end of a skip instruction that started in `s` and left `t`: pc at SkipTarget when the condition holds. -/
def skipWhen (cond : Bool) (s t : State) : Except Fault State :=
  if cond then
    match skipTarget s with
    | .error e => .error e
    | .ok p => .ok { t with pc := p }
  else .ok t

/-! ### The flash and external-memory controller (46_system_control.md R252) -/

/-- The operation is a read, whose result lands in DATAH || DATAL. -/
def FlashKind.isRead : FlashKind → Bool
  | .fread => true
  | .ireadFlash => true
  | .extRead => true
  | .erase => false
  | .fwrite => false
  | .extWrite => false

/-- Issue(op) for an operation that writes or erases: address and data are latched, FBUSY reads 1. -/
def issue (kind : FlashKind) (a : ByteAddress) (d : Word) (s : State) : State :=
  { s with flashOp := some { kind := kind, addr := a, data := d, wait := Config.flashLatency s.time } }

/-- Issue(op) for a read: DATAH and DATAL hold free values from now to completion (log entry 15). -/
def issueRead (kind : FlashKind) (a : ByteAddress) (s : State) : State :=
  issue kind a 0 (s.setData (Config.pendingData s.time))

/-- The effect of the pending operation on flash and DATA. -/
def applyFlashOp (op : FlashOp) (s : State) : State :=
  match op.kind with
  | .erase => { s with flash := eraseWords s.params.erasedWord s.flash (addrWord op.addr) Layout.eraseBlockWords }
  | .fwrite =>
    let d := if s.flashWord (addrWord op.addr) = s.params.erasedWord then op.data else Config.rewrittenWord s.time
    { s with flash := wordWrite Layout.unlistedFlash s.flash (addrWord op.addr) d }
  | .fread => s.setData (s.flashWord (addrWord op.addr))
  | .ireadFlash => s.setData (s.flashWord (addrWord op.addr))
  | .extRead => s.setData (Config.externalWord op.addr s.time)
  | .extWrite => s

/-- Complete(): the effect, then FBUSY reads 0. -/
def complete (op : FlashOp) (s : State) : State := { applyFlashOp op s with flashOp := none }

/-- The controller at an instruction boundary: it completes when its latency has run out (10_state.md R47,
60_exceptions.md R292). -/
def controllerTick (s : State) : State :=
  match s.flashOp with
  | none => s
  | some op =>
    match op.wait with
    | 0 => complete op s
    | n + 1 => { s with flashOp := some { op with wait := n } }

/-! ### Taking an interrupt and returning from one (60_exceptions.md R283, R287, R288) -/

/-- The shadow set written on entry with return address `ra`. -/
def saveShadow (ra : Word) (s : State) : Shadow :=
  { pc := ra, w := s.w, status := s.status, mulh := s.mulh, spdreg := s.spdreg, iph := s.iph, ipl := s.ipl,
    dph := s.dph, dpl := s.dpl, sph := s.sph, spl := s.spl, addrsel := s.addrsel, datah := s.datah, datal := s.datal }

/-- InterruptEntry(ra) (60_exceptions.md R283, R284); a nested entry stops (R291). GIE cleared and SPDREG loaded are PRESUMED
(log entry 33). -/
def interruptEntry (ra : Word) (s : State) : Except Fault State :=
  if s.inIsr then .error .nestedInterrupt
  else .ok { s with shadow := saveShadow ra s, inIsr := true, gie := false, spdreg := s.intspd, pc := s.intvec }

/-- RestoreShadow(restore_speed) (60_exceptions.md R287). -/
def restoreShadow (restoreSpeed : Bool) (s : State) : Except Fault State :=
  if s.inIsr = false then .error .retiOutsideInterrupt
  else .ok { s with
    w := s.shadow.w, status := s.shadow.status, mulh := s.shadow.mulh, iph := s.shadow.iph, ipl := s.shadow.ipl,
    dph := s.shadow.dph, dpl := s.shadow.dpl, sph := s.shadow.sph, spl := s.shadow.spl, addrsel := s.shadow.addrsel,
    datah := s.shadow.datah, datal := s.shadow.datal,
    spdreg := if restoreSpeed then s.shadow.spdreg else s.spdreg,
    pc := s.shadow.pc, inIsr := false }

/-- The return from interrupt: the shadow set restored, then GIE set, which is PRESUMED (60_exceptions.md R287, R288; log entry 33). -/
def interruptReturn (restoreSpeed : Bool) (s : State) : Except Fault State :=
  match restoreShadow restoreSpeed s with
  | .error e => .error e
  | .ok t => .ok { t with gie := true }

/-! ### Break mode and the host (60_exceptions.md R310) -/

/-- Break mode entered. -/
def enterBreak (s : State) : State := { s with breakMode := true }

/-- A host that resumes: `break_mode <- 0`, execution continues at pc (60_exceptions.md R310). -/
def hostResume (s : State) : State := { s with breakMode := false }

/-! ### Reset (70_reset_and_hazards.md R320, R322) -/

/-- STATUS after a reset: WD and BO record the cause by the OPEN parameters (60_exceptions.md R302, R306). -/
def resetStatusFor (cause : ResetCause) : Byte :=
  match cause with
  | .watchdog => setBit State.reset.status 4 Config.wdAfterWatchdogReset
  | .brownOut => setBit State.reset.status 3 Config.boAfterBrownOut
  | .powerOn => State.reset.status
  | .other => State.reset.status

/-- Reset(cause): every item at its reset value, pc at RESET_VECTOR_W; flash is kept, the parameters are those of the machine, and `time`
runs on, so that later free values are fresh. -/
def applyReset (cause : ResetCause) (s : State) : State :=
  { State.reset with
    pc := s.params.resetVector, status := resetStatusFor cause, flash := s.flash, params := s.params, time := s.time }

end Sys2Proof.Machine
end

