-- ==== Sys2Proof/Machine/Operands.lean ====
section
/-! DEFINITION. The `fr` operand (30_encoding.md R103, R104) and the shapes most instructions share: read an operand into W,
read-modify-write a file register, a literal into W, flags only. -/

namespace Sys2Proof.Machine

/-- An offset operand's address: the 16-bit sum, at least 0x20 (30_encoding.md R104). -/
def offsetAddress (base : Word) (o : BitVec 7) : Except Fault Word :=
  let a := base + o.zeroExtend 16
  if a.toNat < Layout.offsetFloor then .error .offsetBelow20 else .ok a

/-- EA(f) (30_encoding.md R104), from the pointers at the start of the instruction. -/
def effectiveAddress (f : FileOperand) (s : State) : Except Fault Word :=
  match f with
  | .indirect => .ok s.ip
  | .direct a => .ok (a.zeroExtend 16)
  | .dpOffset o => offsetAddress s.dp o
  | .spOffset o => offsetAddress s.sp o

/-- FrRead(f) = x[EA(f)] (00_scope.md R7). -/
def frRead (f : FileOperand) (s : State) : Except Fault Byte := do
  let a ← effectiveAddress f s
  readFile a s

/-- W and the flags written with a result; the pc at the next instruction. -/
def resultToW (r : AluResult) (s : State) : State := { s.advance.setFlags r with w := r.value }

/-- `op W,fr`: the operand read, the result to W, memory unchanged. -/
def fileToW (f : FileOperand) (op : Byte → AluResult) (s : State) : Except Fault State := do
  let v ← frRead f s
  .ok (resultToW (op v) s)

/-- The result written at address `a` with its flags; a flag writer aimed at STATUS stops (10_state.md R26). -/
def resultToFile (a : Word) (r : AluResult) (s : State) : Except Fault State :=
  if a = Layout.addrStatus ∧ r.writesFlags then .error .flagWriterTargetsStatus
  else writeFile a r.value (s.advance.setFlags r)

/-- `op fr` and `op fr,W`: one location read, then written, in the same instruction (10_state.md R43). -/
def updateFile (f : FileOperand) (op : Byte → AluResult) (s : State) : Except Fault State := do
  let a ← effectiveAddress f s
  let v ← readFile a s
  resultToFile a (op v) s

/-- `cmp`: the flags only. -/
def flagsOnly (r : AluResult) (s : State) : State := s.advance.setFlags r

/-- A count-and-skip form with destination W (42_compare_skip.md R194). -/
def countToW (f : FileOperand) (count : Byte → Byte) (cond : Byte → Bool) (s : State) : Except Fault State := do
  let v ← frRead f s
  skipWhen (cond (count v)) s { s.advance with w := count v }

/-- A count-and-skip form with destination `fr`: written back whether or not it skips; PCL stops
(42_compare_skip.md R194). -/
def countInFile (f : FileOperand) (count : Byte → Byte) (cond : Byte → Bool) (s : State) : Except Fault State := do
  let a ← effectiveAddress f s
  if a = Layout.addrPcl then .error .skipOnPcl
  else
    let v ← readFile a s
    let t ← writeFile a (count v) s.advance
    skipWhen (cond (count v)) s t

/-- A compare-and-skip or bit-test form: nothing written (42_compare_skip.md R194, 43_bit.md R214). -/
def testAndSkip (f : FileOperand) (cond : Byte → Bool) (s : State) : Except Fault State := do
  let v ← frRead f s
  skipWhen (cond v) s s.advance

/-- `x[SP] <- v; SP <- (SP - 1) mod 2^16` (44_data_movement.md R223, R224, R226), in that order (log entry 22). -/
def pushByte (v : Byte) (s : State) : Except Fault State := do
  let t ← writeFile s.sp v s.advance
  .ok (t.setSp (t.sp - 1))

end Sys2Proof.Machine
end

