-- ==== Sys2Proof/Machine/Arithmetic.lean ====
section
/-! DEFINITION. The arithmetic and shift family (41_arithmetic_shift.md R150 to R182): add, addc, sub, subc, cmp, clr, dec, inc, test, rl, rr,
swap, muls, mulu, cwdt. -/

namespace Sys2Proof.Machine

/-- `add fr,w`; with PCL as destination a sum that carries stops (41_arithmetic_shift.md R152, 10_state.md R23). -/
def execAddFrW (f : FileOperand) (s : State) : Host.Outcome State Fault Refusal :=
  settle do
    let a ← effectiveAddress f s
    let v ← readFile a s
    if a = Layout.addrPcl ∧ 0xFF < v.toNat + s.w.toNat then .error .pclCarry
    else resultToFile a (addFlags v s.w false) s

/-- `add w,fr` (41_arithmetic_shift.md R153). -/
def execAddWFr (f : FileOperand) (s : State) : Host.Outcome State Fault Refusal :=
  settle (fileToW f (fun v => addFlags s.w v false) s)

/-- `add w,#lit8` (41_arithmetic_shift.md R154). -/
def execAddWLit (k : BitVec 8) (s : State) : Host.Outcome State Fault Refusal :=
  .next (resultToW (addFlags s.w k false) s)

/-- `addc fr,w` (41_arithmetic_shift.md R155). -/
def execAddcFrW (f : FileOperand) (s : State) : Host.Outcome State Fault Refusal :=
  settle (updateFile f (fun v => addFlags v s.w s.carry) s)

/-- `addc w,fr` (41_arithmetic_shift.md R156). -/
def execAddcWFr (f : FileOperand) (s : State) : Host.Outcome State Fault Refusal :=
  settle (fileToW f (fun v => addFlags s.w v s.carry) s)

/-- `sub fr,w`: fr - W (41_arithmetic_shift.md R157). -/
def execSubFrW (f : FileOperand) (s : State) : Host.Outcome State Fault Refusal :=
  settle (updateFile f (fun v => subFlags v s.w false) s)

/-- `sub w,fr`: fr - W (41_arithmetic_shift.md R158). -/
def execSubWFr (f : FileOperand) (s : State) : Host.Outcome State Fault Refusal :=
  settle (fileToW f (fun v => subFlags v s.w false) s)

/-- `sub w,#lit8`: lit8 - W (41_arithmetic_shift.md R159). -/
def execSubWLit (k : BitVec 8) (s : State) : Host.Outcome State Fault Refusal :=
  .next (resultToW (subFlags k s.w false) s)

/-- `subc fr,w`: fr - W less the complement of C (41_arithmetic_shift.md R160). -/
def execSubcFrW (f : FileOperand) (s : State) : Host.Outcome State Fault Refusal :=
  settle (updateFile f (fun v => subFlags v s.w (!s.carry)) s)

/-- `subc w,fr`: fr - W less the complement of C (41_arithmetic_shift.md R161). -/
def execSubcWFr (f : FileOperand) (s : State) : Host.Outcome State Fault Refusal :=
  settle (fileToW f (fun v => subFlags v s.w (!s.carry)) s)

/-- `cmp w,fr`: the flags of fr - W, the result discarded (41_arithmetic_shift.md R162, 90_conflicts.md C4). -/
def execCmpWFr (f : FileOperand) (s : State) : Host.Outcome State Fault Refusal :=
  settle do
    let v ← frRead f s
    .ok (flagsOnly (subFlags v s.w false) s)

/-- `cmp w,#lit8`: the flags of lit8 - W (41_arithmetic_shift.md R163). -/
def execCmpWLit (k : BitVec 8) (s : State) : Host.Outcome State Fault Refusal :=
  .next (flagsOnly (subFlags k s.w false) s)

/-- `clr fr`: one write, no read; Z set (41_arithmetic_shift.md R164). -/
def execClrFr (f : FileOperand) (s : State) : Host.Outcome State Fault Refusal :=
  settle do
    let a ← effectiveAddress f s
    resultToFile a (zeroFlag 0) s

/-- `dec fr`: Z only (41_arithmetic_shift.md R165). -/
def execDecFr (f : FileOperand) (s : State) : Host.Outcome State Fault Refusal :=
  settle (updateFile f (fun v => zeroFlag (v - 1)) s)

/-- `dec w,fr`: Z only (41_arithmetic_shift.md R166). -/
def execDecWFr (f : FileOperand) (s : State) : Host.Outcome State Fault Refusal :=
  settle (fileToW f (fun v => zeroFlag (v - 1)) s)

/-- `test fr`: the location written with its own value, Z; on T0TMR the Timer 0 prescaler is cleared
(41_arithmetic_shift.md R167). -/
def execTestFr (f : FileOperand) (s : State) : Host.Outcome State Fault Refusal :=
  settle do
    let a ← effectiveAddress f s
    let v ← readFile a s
    let t ← resultToFile a (zeroFlag v) s
    .ok (if a = s.params.addrT0tmr then { t with t0Prescaler := 0 } else t)

/-- `inc fr`: Z only (41_arithmetic_shift.md R168). -/
def execIncFr (f : FileOperand) (s : State) : Host.Outcome State Fault Refusal :=
  settle (updateFile f (fun v => zeroFlag (v + 1)) s)

/-- `inc w,fr`: Z only (41_arithmetic_shift.md R169). -/
def execIncWFr (f : FileOperand) (s : State) : Host.Outcome State Fault Refusal :=
  settle (fileToW f (fun v => zeroFlag (v + 1)) s)

/-- `rl fr`: C only (41_arithmetic_shift.md R171). -/
def execRlFr (f : FileOperand) (s : State) : Host.Outcome State Fault Refusal :=
  settle (updateFile f (fun v => rotateLeft v s.carry) s)

/-- `rl w,fr`: C only (41_arithmetic_shift.md R172). -/
def execRlWFr (f : FileOperand) (s : State) : Host.Outcome State Fault Refusal :=
  settle (fileToW f (fun v => rotateLeft v s.carry) s)

/-- `rr fr`: C only (41_arithmetic_shift.md R173). -/
def execRrFr (f : FileOperand) (s : State) : Host.Outcome State Fault Refusal :=
  settle (updateFile f (fun v => rotateRight v s.carry) s)

/-- `rr w,fr`: C only (41_arithmetic_shift.md R174). -/
def execRrWFr (f : FileOperand) (s : State) : Host.Outcome State Fault Refusal :=
  settle (fileToW f (fun v => rotateRight v s.carry) s)

/-- `swap fr`: no flag (41_arithmetic_shift.md R175). -/
def execSwapFr (f : FileOperand) (s : State) : Host.Outcome State Fault Refusal :=
  settle (updateFile f (fun v => noFlags (swapNibbles v)) s)

/-- `swap w,fr`: no flag (41_arithmetic_shift.md R176). -/
def execSwapWFr (f : FileOperand) (s : State) : Host.Outcome State Fault Refusal :=
  settle (fileToW f (fun v => noFlags (swapNibbles v)) s)

/-- The shared body of the two multiplies with an `fr` operand: MULH || W takes the product, no flag
(41_arithmetic_shift.md R177, R179). -/
def multiplyFile (f : FileOperand) (product : Byte → Byte → Word) (s : State) : Except Fault State := do
  let v ← frRead f s
  .ok (s.advance.setProduct (product s.w v))

/-- `muls w,fr` (41_arithmetic_shift.md R177). -/
def execMulsWFr (f : FileOperand) (s : State) : Host.Outcome State Fault Refusal :=
  settle (multiplyFile f signedProduct s)

/-- `muls w,#lit8` (41_arithmetic_shift.md R178). -/
def execMulsWLit (k : BitVec 8) (s : State) : Host.Outcome State Fault Refusal :=
  .next (s.advance.setProduct (signedProduct s.w k))

/-- `mulu w,fr` (41_arithmetic_shift.md R179). -/
def execMuluWFr (f : FileOperand) (s : State) : Host.Outcome State Fault Refusal :=
  settle (multiplyFile f unsignedProduct s)

/-- `mulu w,#lit8` (41_arithmetic_shift.md R180). -/
def execMuluWLit (k : BitVec 8) (s : State) : Host.Outcome State Fault Refusal :=
  .next (s.advance.setProduct (unsignedProduct s.w k))

/-- `cwdt`: watchdog counter and prescaler cleared, no flag (41_arithmetic_shift.md R181, 90_conflicts.md C7). -/
def execCwdt (s : State) : Host.Outcome State Fault Refusal :=
  .next { s.advance with wdtCounter := 0, wdtPrescaler := 0 }

end Sys2Proof.Machine
end

