-- ==== Sys2Proof/Machine/BitOps.lean ====
section
/-! DEFINITION. The bit family (43_bit.md R210 to R215). No flag result; on STATUS `clrb` and `setb` are ordinary writes. -/

namespace Sys2Proof.Machine

/-- `clrb fr,bit` (43_bit.md R210). -/
def execClrbFrBit (f : FileOperand) (b : BitVec 3) (s : State) : Host.Outcome State Fault Refusal :=
  settle (updateFile f (fun v => noFlags (setBit v b.toNat false)) s)

/-- `setb fr,bit` (43_bit.md R211). -/
def execSetbFrBit (f : FileOperand) (b : BitVec 3) (s : State) : Host.Outcome State Fault Refusal :=
  settle (updateFile f (fun v => noFlags (setBit v b.toNat true)) s)

/-- `sb fr,bit`: skip if set (43_bit.md R212). -/
def execSbFrBit (f : FileOperand) (b : BitVec 3) (s : State) : Host.Outcome State Fault Refusal :=
  settle (testAndSkip f (fun v => v.getLsbD b.toNat) s)

/-- `snb fr,bit`: skip if clear (43_bit.md R213). -/
def execSnbFrBit (f : FileOperand) (b : BitVec 3) (s : State) : Host.Outcome State Fault Refusal :=
  settle (testAndSkip f (fun v => !v.getLsbD b.toNat) s)

end Sys2Proof.Machine
end

