-- ==== Sys2Proof/Machine/CompareSkip.lean ====
section
/-! DEFINITION. The compare-and-skip and count-and-skip family (42_compare_skip.md R190 to R204). None writes STATUS as a flag result. -/

namespace Sys2Proof.Machine

/-- `cse w,fr`: skip if fr = W (42_compare_skip.md R190). -/
def execCseWFr (f : FileOperand) (s : State) : Host.Outcome State Fault Refusal :=
  settle (testAndSkip f (fun v => v == s.w) s)

/-- `cse w,#lit8`: skip if lit8 = W (42_compare_skip.md R191). -/
def execCseWLit (k : BitVec 8) (s : State) : Host.Outcome State Fault Refusal :=
  settle (skipWhen (k == s.w) s s.advance)

/-- `csne w,fr`: skip if fr != W (42_compare_skip.md R192). -/
def execCsneWFr (f : FileOperand) (s : State) : Host.Outcome State Fault Refusal :=
  settle (testAndSkip f (fun v => v != s.w) s)

/-- `csne w,#lit8`: skip if lit8 != W (42_compare_skip.md R193). -/
def execCsneWLit (k : BitVec 8) (s : State) : Host.Outcome State Fault Refusal :=
  settle (skipWhen (k != s.w) s s.advance)

/-- `decsz fr`: skip if the new value is zero (42_compare_skip.md R196). -/
def execDecszFr (f : FileOperand) (s : State) : Host.Outcome State Fault Refusal :=
  settle (countInFile f (fun v => v - 1) (fun r => r == 0) s)

/-- `decsz w,fr`: skip if the new value is zero (42_compare_skip.md R197). -/
def execDecszWFr (f : FileOperand) (s : State) : Host.Outcome State Fault Refusal :=
  settle (countToW f (fun v => v - 1) (fun r => r == 0) s)

/-- `decsnz fr`: skip if the new value is not zero (42_compare_skip.md R198). -/
def execDecsnzFr (f : FileOperand) (s : State) : Host.Outcome State Fault Refusal :=
  settle (countInFile f (fun v => v - 1) (fun r => r != 0) s)

/-- `decsnz w,fr`: skip if the new value is not zero (42_compare_skip.md R199). -/
def execDecsnzWFr (f : FileOperand) (s : State) : Host.Outcome State Fault Refusal :=
  settle (countToW f (fun v => v - 1) (fun r => r != 0) s)

/-- `incsz fr`: skip if the new value is zero (42_compare_skip.md R200). -/
def execIncszFr (f : FileOperand) (s : State) : Host.Outcome State Fault Refusal :=
  settle (countInFile f (fun v => v + 1) (fun r => r == 0) s)

/-- `incsz w,fr`: skip if the new value is zero (42_compare_skip.md R201). -/
def execIncszWFr (f : FileOperand) (s : State) : Host.Outcome State Fault Refusal :=
  settle (countToW f (fun v => v + 1) (fun r => r == 0) s)

/-- `incsnz fr`: skip if the new value is not zero (42_compare_skip.md R202). -/
def execIncsnzFr (f : FileOperand) (s : State) : Host.Outcome State Fault Refusal :=
  settle (countInFile f (fun v => v + 1) (fun r => r != 0) s)

/-- `incsnz w,fr`: skip if the new value is not zero (42_compare_skip.md R203). -/
def execIncsnzWFr (f : FileOperand) (s : State) : Host.Outcome State Fault Refusal :=
  settle (countToW f (fun v => v + 1) (fun r => r != 0) s)

end Sys2Proof.Machine
end

