-- ==== Sys2Proof/Machine/DataMove.lean ====
section
/-! DEFINITION. The data movement family (44_data_movement.md R220 to R227): mov, push, pop. -/

namespace Sys2Proof.Machine

/-- `mov fr,w`: the destination is written without being read (44_data_movement.md R220). -/
def execMovFrW (f : FileOperand) (s : State) : Host.Outcome State Fault Refusal :=
  settle do
    let a ← effectiveAddress f s
    writeFile a s.w s.advance

/-- `mov w,fr`: Z (44_data_movement.md R221, 90_conflicts.md C8). -/
def execMovWFr (f : FileOperand) (s : State) : Host.Outcome State Fault Refusal :=
  settle (fileToW f zeroFlag s)

/-- `mov w,#lit8`: no flag (44_data_movement.md R222). -/
def execMovWLit (k : BitVec 8) (s : State) : Host.Outcome State Fault Refusal :=
  .next { s.advance with w := k }

/-- `push fr`: the operand is read with the old SP (44_data_movement.md R223). -/
def execPushFr (f : FileOperand) (s : State) : Host.Outcome State Fault Refusal :=
  settle do
    let v ← frRead f s
    pushByte v s

/-- `push #lit8` (44_data_movement.md R224). -/
def execPushLit (k : BitVec 8) (s : State) : Host.Outcome State Fault Refusal :=
  settle (pushByte k s)

/-- The operand is an `offset(sp)` form, whatever address it gives (44_data_movement.md R225). -/
def isSpOffset (f : FileOperand) : Bool :=
  match f with
  | .spOffset _ => true
  | .indirect => false
  | .direct _ => false
  | .dpOffset _ => false

/-- Where a `pop` stores: an operand that depends on SP stops, an `offset(sp)` form before its address is computed, and then the address
of SPH or SPL (44_data_movement.md R225). -/
def popAddress (f : FileOperand) (s : State) : Except Fault Word :=
  if isSpOffset f then .error .popDependsOnSp
  else do
    let a ← effectiveAddress f s
    if a = Layout.addrSph ∨ a = Layout.addrSpl then .error .popDependsOnSp else .ok a

/-- The pop itself, once the destination address is known (44_data_movement.md R225). -/
def popByte (a : Word) (s : State) : Except Fault State := do
  let t := s.setSp (s.sp + 1)
  let v ← readFile t.sp t
  writeFile a v t.advance

/-- `pop fr` (44_data_movement.md R225). -/
def execPopFr (f : FileOperand) (s : State) : Host.Outcome State Fault Refusal :=
  settle do
    let a ← popAddress f s
    popByte a s

end Sys2Proof.Machine
end

