-- ==== Sys2Proof/Machine/Logical.lean ====
section
/-! DEFINITION. The logical family (40_logical.md R130 to R142): and, or, xor, not. Z only. -/

namespace Sys2Proof.Machine

/-- `and fr,w` (40_logical.md R131). -/
def execAndFrW (f : FileOperand) (s : State) : Host.Outcome State Fault Refusal :=
  settle (updateFile f (fun v => zeroFlag (v &&& s.w)) s)

/-- `and w,fr` (40_logical.md R132). -/
def execAndWFr (f : FileOperand) (s : State) : Host.Outcome State Fault Refusal :=
  settle (fileToW f (fun v => zeroFlag (s.w &&& v)) s)

/-- `and w,#lit8` (40_logical.md R133). -/
def execAndWLit (k : BitVec 8) (s : State) : Host.Outcome State Fault Refusal :=
  .next (resultToW (zeroFlag (s.w &&& k)) s)

/-- `or fr,w` (40_logical.md R134). -/
def execOrFrW (f : FileOperand) (s : State) : Host.Outcome State Fault Refusal :=
  settle (updateFile f (fun v => zeroFlag (v ||| s.w)) s)

/-- `or w,fr` (40_logical.md R135). -/
def execOrWFr (f : FileOperand) (s : State) : Host.Outcome State Fault Refusal :=
  settle (fileToW f (fun v => zeroFlag (s.w ||| v)) s)

/-- `or w,#lit8` (40_logical.md R136). -/
def execOrWLit (k : BitVec 8) (s : State) : Host.Outcome State Fault Refusal :=
  .next (resultToW (zeroFlag (s.w ||| k)) s)

/-- `xor fr,w` (40_logical.md R137). -/
def execXorFrW (f : FileOperand) (s : State) : Host.Outcome State Fault Refusal :=
  settle (updateFile f (fun v => zeroFlag (v ^^^ s.w)) s)

/-- `xor w,fr` (40_logical.md R138). -/
def execXorWFr (f : FileOperand) (s : State) : Host.Outcome State Fault Refusal :=
  settle (fileToW f (fun v => zeroFlag (s.w ^^^ v)) s)

/-- `xor w,#lit8` (40_logical.md R139). -/
def execXorWLit (k : BitVec 8) (s : State) : Host.Outcome State Fault Refusal :=
  .next (resultToW (zeroFlag (s.w ^^^ k)) s)

/-- `not fr` (40_logical.md R140). -/
def execNotFr (f : FileOperand) (s : State) : Host.Outcome State Fault Refusal :=
  settle (updateFile f (fun v => zeroFlag (~~~v)) s)

/-- `not w,fr` (40_logical.md R141). -/
def execNotWFr (f : FileOperand) (s : State) : Host.Outcome State Fault Refusal :=
  settle (fileToW f (fun v => zeroFlag (~~~v)) s)

end Sys2Proof.Machine
end

