-- ==== Sys2Proof/Machine/ProgramControl.lean ====
section
/-! DEFINITION. The program control family (45_program_control.md R230 to R240): jmp, call, int, nop, ret, retnp, retw, reti. -/

namespace Sys2Proof.Machine

/-- The target of `jmp` and `call`: PA2:0 || addr13 (45_program_control.md R230). -/
def jumpTarget (k : BitVec 13) (s : State) : Word := s.page ++ k

/-- The shared return: pop, and pc at the popped address (45_program_control.md R234). -/
def returnTo (setPageBits : Bool) (s : State) : Except Fault State :=
  match callPop s with
  | .error e => .error e
  | .ok (t, u) =>
    let v := { u with pc := t }
    .ok (if setPageBits then v.setPage (t.extractLsb' 13 3) else v)

/-- `jmp addr13` (45_program_control.md R230). -/
def execJmp (k : BitVec 13) (s : State) : Host.Outcome State Fault Refusal :=
  .next { s with pc := jumpTarget k s }

/-- `call addr13`: pc + 1 pushed, then the jump (45_program_control.md R231). -/
def execCall (k : BitVec 13) (s : State) : Host.Outcome State Fault Refusal :=
  settle do
    let t ← callPush (s.pc + 1) s
    .ok { t with pc := jumpTarget k s }

/-- `int`: an interrupt with return address pc + 1 when GIE = 1 and INT_EN = 0, else no operation
(45_program_control.md R232; INT_EN's polarity as printed, log entry 28). -/
def execInt (s : State) : Host.Outcome State Fault Refusal :=
  if s.gie && !s.intEn then settle (interruptEntry (s.pc + 1) s) else .next s.advance

/-- `nop` (45_program_control.md R233). -/
def execNop (s : State) : Host.Outcome State Fault Refusal :=
  .next s.advance

/-- `ret`: PA2:0 takes the page returned to (45_program_control.md R235). -/
def execRet (s : State) : Host.Outcome State Fault Refusal :=
  settle (returnTo true s)

/-- `retnp`: STATUS unchanged (45_program_control.md R236). -/
def execRetnp (s : State) : Host.Outcome State Fault Refusal :=
  settle (returnTo false s)

/-- `retw #lit8` (45_program_control.md R240, 90_conflicts.md C14). -/
def execRetw (k : BitVec 8) (s : State) : Host.Outcome State Fault Refusal :=
  settle (returnTo true { s with w := k })

/-- The `reti` options that take effect before the restore: bit 1 stores the address after the `reti` in the vector,
bit 0 adds the routine's W to T0TMR (45_program_control.md R238, 60_exceptions.md R289). -/
def retiOptions (n : BitVec 3) (s : State) : State :=
  let t := if n.getLsbD 1 then s.setIntvec (s.pc + 1) else s
  if n.getLsbD 0 then { t with t0tmr := t.t0tmr + s.w } else t

/-- `reti #lit3` (45_program_control.md R238). -/
def execReti (n : BitVec 3) (s : State) : Host.Outcome State Fault Refusal :=
  settle (interruptReturn (n.getLsbD 2) (retiOptions n s))

end Sys2Proof.Machine
end

