-- ==== Sys2Proof/Machine/SystemControl.lean ====
section
/-! DEFINITION. The system control family (46_system_control.md R250 to R264): break, breakx, the flash and program-memory instructions,
loadh, loadl, page, speed. -/

namespace Sys2Proof.Machine

/-- `break` (46_system_control.md R250). -/
def execBrk (s : State) : Host.Outcome State Fault Refusal :=
  .next (enterBreak s.advance)

/-- `breakx` reached by normal execution; passed over by a skip it extends the skip, see `isExtender` (46_system_control.md R251). -/
def execBrkx (s : State) : Host.Outcome State Fault Refusal :=
  .next (enterBreak s.advance)

/-- What `ferase`, `fread` and `fwrite` require: FBUSY = 0, and the instruction not fetched from flash
(46_system_control.md R253). -/
def flashGuard (s : State) : Option Fault :=
  if s.fbusy then some .flashInstructionWhileBusy
  else if s.params.inFlash s.pc then some .flashInstructionFromFlash
  else none

/-- The ADDR value selects flash. -/
def Params.addrInFlash (p : Params) (a : ByteAddress) : Bool := addrOnChip a && p.inFlash (addrWord a)

/-- ADDRX || ADDRH || 0x00, the block of `ferase` (46_system_control.md R254). -/
def eraseBlock (s : State) : ByteAddress := s.addrx ++ s.addrh ++ (0x00 : Byte)

/-- `ferase` (46_system_control.md R254). -/
def execFerase (s : State) : Host.Outcome State Fault Refusal :=
  match flashGuard s with
  | some e => .fault e
  | none =>
    if s.addrh.getLsbD 0 then .fault .eraseBlockUnaligned
    else if s.params.addrInFlash (eraseBlock s) then .next (issue .erase (eraseBlock s) 0 s.advance)
    else .next s.advance

/-- `fread` (46_system_control.md R255). -/
def execFread (s : State) : Host.Outcome State Fault Refusal :=
  match flashGuard s with
  | some e => .fault e
  | none =>
    if s.addrl.getLsbD 0 then .fault .oddAddr
    else if s.params.addrInFlash s.addr then .next (issueRead .fread s.addr s.advance)
    else .next s.advance

/-- `fwrite` (46_system_control.md R256). -/
def execFwrite (s : State) : Host.Outcome State Fault Refusal :=
  match flashGuard s with
  | some e => .fault e
  | none =>
    if s.addrl.getLsbD 0 then .fault .oddAddr
    else if s.params.addrInFlash s.addr then .next (issue .fwrite s.addr s.dataWord s.advance)
    else .next s.advance

/-- What the four program-memory access instructions require: FBUSY = 0 (for a read of flash the manual forbids it,
for the rest nothing is said) and an even ADDR (46_system_control.md R253, 20_memory.md R76, R80; log entry 27). -/
def accessGuard (reads : Bool) (s : State) : Option Fault :=
  if s.fbusy then
    if reads && s.params.addrInFlash s.addr then some .flashAccessWhileBusy else some .programAccessWhileBusy
  else if s.addrl.getLsbD 0 then some .oddAddr
  else none

/-- A read of program RAM (blocking), or of flash: blocking from flash, non-blocking from program RAM
(46_system_control.md R257). -/
def readFlashWord (s : State) : State :=
  if s.params.inFlash s.pc then s.advance.setData (s.flashWord (addrWord s.addr))
  else issueRead .ireadFlash s.addr s.advance

/-- `iread` (46_system_control.md R257). -/
def execIread (s : State) : Host.Outcome State Fault Refusal :=
  match accessGuard true s with
  | some e => .fault e
  | none =>
    match s.params.regionOf s.addr with
    | .programRam => .next (s.advance.setData (s.pramWord (addrWord s.addr)))
    | .flash => .next (readFlashWord s)
    | .external => .next (issueRead .extRead s.addr s.advance)
    | .unbacked => .fault .unbackedProgramAddress

/-- ADDRL <- ADDRL + 2; a carry stops (46_system_control.md R258, 90_conflicts.md C29). -/
def stepAddrl (addrl : Byte) (s : State) : Host.Outcome State Fault Refusal :=
  if 0xFE ≤ addrl.toNat then .fault .addrlCarry else .next { s with addrl := addrl + 2 }

/-- `ireadi` (46_system_control.md R258). -/
def execIreadi (s : State) : Host.Outcome State Fault Refusal :=
  match accessGuard true s with
  | some e => .fault e
  | none =>
    match s.params.regionOf s.addr with
    | .programRam => stepAddrl s.addrl (s.advance.setData (s.pramWord (addrWord s.addr)))
    | .flash => stepAddrl s.addrl (readFlashWord s)
    | .external => .fault .ireadiOutside
    | .unbacked => .fault .ireadiOutside

/-- The program word written is the one at pc + 1 or pc + 2 (20_memory.md R88, 70_reset_and_hazards.md R333). -/
def writesPrefetched (s : State) : Bool :=
  addrWord s.addr == s.pc + 1 || addrWord s.addr == s.pc + 2

/-- `iwrite` (46_system_control.md R259). Of external memory it writes the external RAM, a free part of the window (log entry 13). -/
def execIwrite (s : State) : Host.Outcome State Fault Refusal :=
  match accessGuard false s with
  | some e => .fault e
  | none =>
    match s.params.regionOf s.addr with
    | .programRam =>
      if writesPrefetched s then .fault .writesPrefetchedWord
      else .next (pmemWrite s.advance (addrWord s.addr) s.dataWord)
    | .external =>
      if Config.externalRam s.addr then .next (issue .extWrite s.addr s.dataWord s.advance) else .next s.advance
    | .flash => .next s.advance
    | .unbacked => .next s.advance

/-- `iwritei` (46_system_control.md R260). -/
def execIwritei (s : State) : Host.Outcome State Fault Refusal :=
  match accessGuard false s with
  | some e => .fault e
  | none =>
    match s.params.regionOf s.addr with
    | .programRam =>
      if writesPrefetched s then .fault .writesPrefetchedWord
      else stepAddrl s.addrl (pmemWrite s.advance (addrWord s.addr) s.dataWord)
    | .external => .fault .iwriteiOutside
    | .flash => .fault .iwriteiOutside
    | .unbacked => .fault .iwriteiOutside

/-- `loadh addr8` (46_system_control.md R261). -/
def execLoadh (k : BitVec 8) (s : State) : Host.Outcome State Fault Refusal :=
  .next { s.advance with dph := k }

/-- `loadl addr8` (46_system_control.md R262, 90_conflicts.md C11). -/
def execLoadl (k : BitVec 8) (s : State) : Host.Outcome State Fault Refusal :=
  .next { s.advance with dpl := k }

/-- `page addr3` (46_system_control.md R263). -/
def execPage (n : BitVec 3) (s : State) : Host.Outcome State Fault Refusal :=
  .next (s.advance.setPage n)

/-- `speed #lit8`: SPDREG stored, nothing derived from it (46_system_control.md R264). -/
def execSpeed (n : BitVec 8) (s : State) : Host.Outcome State Fault Refusal :=
  .next { s.advance with spdreg := n }

end Sys2Proof.Machine
end

