-- ==== Sys2Proof/Machine/Dispatch.lean ====
section
/-! DEFINITION. The dispatch: one arm per constructor of Instr, each one direct call of its meaning. -/

namespace Sys2Proof.Machine

def exec (i : Instr) (s : State) : Host.Outcome State Fault Refusal :=
  match i with
  | .movFrW f => Sys2Proof.Machine.execMovFrW f s
  | .cmpWFr f => Sys2Proof.Machine.execCmpWFr f s
  | .clrFr f => Sys2Proof.Machine.execClrFr f s
  | .subWFr f => Sys2Proof.Machine.execSubWFr f s
  | .subFrW f => Sys2Proof.Machine.execSubFrW f s
  | .decWFr f => Sys2Proof.Machine.execDecWFr f s
  | .decFr f => Sys2Proof.Machine.execDecFr f s
  | .orWFr f => Sys2Proof.Machine.execOrWFr f s
  | .orFrW f => Sys2Proof.Machine.execOrFrW f s
  | .andWFr f => Sys2Proof.Machine.execAndWFr f s
  | .andFrW f => Sys2Proof.Machine.execAndFrW f s
  | .xorWFr f => Sys2Proof.Machine.execXorWFr f s
  | .xorFrW f => Sys2Proof.Machine.execXorFrW f s
  | .addWFr f => Sys2Proof.Machine.execAddWFr f s
  | .addFrW f => Sys2Proof.Machine.execAddFrW f s
  | .movWFr f => Sys2Proof.Machine.execMovWFr f s
  | .testFr f => Sys2Proof.Machine.execTestFr f s
  | .notWFr f => Sys2Proof.Machine.execNotWFr f s
  | .notFr f => Sys2Proof.Machine.execNotFr f s
  | .incWFr f => Sys2Proof.Machine.execIncWFr f s
  | .incFr f => Sys2Proof.Machine.execIncFr f s
  | .decszWFr f => Sys2Proof.Machine.execDecszWFr f s
  | .decszFr f => Sys2Proof.Machine.execDecszFr f s
  | .rrWFr f => Sys2Proof.Machine.execRrWFr f s
  | .rrFr f => Sys2Proof.Machine.execRrFr f s
  | .rlWFr f => Sys2Proof.Machine.execRlWFr f s
  | .rlFr f => Sys2Proof.Machine.execRlFr f s
  | .swapWFr f => Sys2Proof.Machine.execSwapWFr f s
  | .swapFr f => Sys2Proof.Machine.execSwapFr f s
  | .incszWFr f => Sys2Proof.Machine.execIncszWFr f s
  | .incszFr f => Sys2Proof.Machine.execIncszFr f s
  | .csneWFr f => Sys2Proof.Machine.execCsneWFr f s
  | .cseWFr f => Sys2Proof.Machine.execCseWFr f s
  | .pushFr f => Sys2Proof.Machine.execPushFr f s
  | .popFr f => Sys2Proof.Machine.execPopFr f s
  | .subcWFr f => Sys2Proof.Machine.execSubcWFr f s
  | .subcFrW f => Sys2Proof.Machine.execSubcFrW f s
  | .decsnzWFr f => Sys2Proof.Machine.execDecsnzWFr f s
  | .decsnzFr f => Sys2Proof.Machine.execDecsnzFr f s
  | .muluWFr f => Sys2Proof.Machine.execMuluWFr f s
  | .mulsWFr f => Sys2Proof.Machine.execMulsWFr f s
  | .incsnzWFr f => Sys2Proof.Machine.execIncsnzWFr f s
  | .incsnzFr f => Sys2Proof.Machine.execIncsnzFr f s
  | .addcWFr f => Sys2Proof.Machine.execAddcWFr f s
  | .addcFrW f => Sys2Proof.Machine.execAddcFrW f s
  | .loadh k => Sys2Proof.Machine.execLoadh k s
  | .loadl k => Sys2Proof.Machine.execLoadl k s
  | .muluWLit k => Sys2Proof.Machine.execMuluWLit k s
  | .mulsWLit k => Sys2Proof.Machine.execMulsWLit k s
  | .pushLit k => Sys2Proof.Machine.execPushLit k s
  | .csneWLit k => Sys2Proof.Machine.execCsneWLit k s
  | .cseWLit k => Sys2Proof.Machine.execCseWLit k s
  | .retw k => Sys2Proof.Machine.execRetw k s
  | .cmpWLit k => Sys2Proof.Machine.execCmpWLit k s
  | .subWLit k => Sys2Proof.Machine.execSubWLit k s
  | .addWLit k => Sys2Proof.Machine.execAddWLit k s
  | .movWLit k => Sys2Proof.Machine.execMovWLit k s
  | .orWLit k => Sys2Proof.Machine.execOrWLit k s
  | .andWLit k => Sys2Proof.Machine.execAndWLit k s
  | .xorWLit k => Sys2Proof.Machine.execXorWLit k s
  | .clrbFrBit f b => Sys2Proof.Machine.execClrbFrBit f b s
  | .setbFrBit f b => Sys2Proof.Machine.execSetbFrBit f b s
  | .snbFrBit f b => Sys2Proof.Machine.execSnbFrBit f b s
  | .sbFrBit f b => Sys2Proof.Machine.execSbFrBit f b s
  | .call k => Sys2Proof.Machine.execCall k s
  | .jmp k => Sys2Proof.Machine.execJmp k s
  | .nop => Sys2Proof.Machine.execNop s
  | .brk => Sys2Proof.Machine.execBrk s
  | .retnp => Sys2Proof.Machine.execRetnp s
  | .ferase => Sys2Proof.Machine.execFerase s
  | .cwdt => Sys2Proof.Machine.execCwdt s
  | .brkx => Sys2Proof.Machine.execBrkx s
  | .int => Sys2Proof.Machine.execInt s
  | .ret => Sys2Proof.Machine.execRet s
  | .reti n => Sys2Proof.Machine.execReti n s
  | .page n => Sys2Proof.Machine.execPage n s
  | .iwrite => Sys2Proof.Machine.execIwrite s
  | .iread => Sys2Proof.Machine.execIread s
  | .fwrite => Sys2Proof.Machine.execFwrite s
  | .fread => Sys2Proof.Machine.execFread s
  | .iwritei => Sys2Proof.Machine.execIwritei s
  | .ireadi => Sys2Proof.Machine.execIreadi s
  | .speed n => Sys2Proof.Machine.execSpeed n s

end Sys2Proof.Machine
end

