-- ==== Sys2Proof/Machine/Environment.lean ====
section
/-! DEFINITION. What happens outside the core between two steps: Timer 0, the watchdog, the request line, resets
(00_scope.md R9). Every choice is an opaque function of Config applied to `time`, which moves on by one. -/

namespace Sys2Proof.Machine

/-- Timer 0 behind its prescaler: an unknown number of clocks arrives (60_exceptions.md R303 to R305, log entry 18). -/
def timer0Tick (s : State) : State :=
  let total := s.t0Prescaler.toNat + Config.timer0Clocks s.time
  let scale := (Config.timer0Scale s.time).toNat + 1
  { s with t0tmr := s.t0tmr + BitVec.ofNat 8 (total / scale), t0Prescaler := BitVec.ofNat 8 (total % scale) }

/-- The watchdog counter behind its prescaler (60_exceptions.md R300, R301, log entry 19). The widths of both are in no source: the model
lets the counter count on without wrapping. DESIGN CHOICE (log entry 19). -/
def watchdogTick (s : State) : State :=
  let total := s.wdtPrescaler + Config.watchdogClocks s.time
  let scale := Config.watchdogScale + 1
  { s with wdtCounter := s.wdtCounter + total / scale, wdtPrescaler := total % scale }

/-- A reset requested by a cause other than the watchdog (70_reset_and_hazards.md R320, log entry 20). -/
def otherReset (time : Nat) : Option ResetCause :=
  match Config.resetEvent time with
  | none => none
  | some .watchdog => none
  | some .powerOn => some .powerOn
  | some .brownOut => some .brownOut
  | some .other => some .other

/-- The reset requested at the next boundary: a watchdog time-out (60_exceptions.md R302) or another cause. The spec gives a Reset one cause
(70_reset_and_hazards.md R320) and orders resets before all else (60_exceptions.md R292), not among themselves: where a time-out and
another cause fall on the same boundary the time-out is recorded, in WD, and the other, with BO, is dropped. DESIGN CHOICE, unsafe
(log entry 46). -/
def nextReset (s : State) : Option ResetCause :=
  if Config.watchdogEnabled && decide (Config.watchdogPeriod ≤ s.wdtCounter) then some .watchdog
  else otherReset s.time

/-- DATAH and DATAL take fresh free values at every boundary while a read is pending (46_system_control.md R252,
log entry 15). -/
def pendingDataTick (s : State) : State :=
  match s.flashOp with
  | none => s
  | some op => if op.kind.isRead then s.setData (Config.pendingData (s.time + 1)) else s

/-- Everything outside the core between this step and the next. -/
def environment (s : State) : State :=
  let t := pendingDataTick (watchdogTick (timer0Tick s))
  { t with irq := Config.irqLine s.time, resetRequest := nextReset t, time := s.time + 1 }

/-- The environment after a step that has a next state. -/
def afterCore : Host.Outcome State Fault Refusal → Host.Outcome State Fault Refusal
  | .next s => .next (environment s)
  | .fault e => .fault e
  | .refused r => .refused r

end Sys2Proof.Machine
end

