-- ==== Sys2Proof/Machine/Cycle.lean ====
section
/-! DEFINITION. One step of the core (10_state.md R47): Break mode, interrupt entry, or fetch, decode, execute; and the placing
of a word where the core fetches. -/

namespace Sys2Proof.Machine

/-- Fetch, decode and execute (10_state.md R47, 20_memory.md R78, 30_encoding.md R106, R109). -/
def runFetched (s : State) : Host.Outcome State Fault Refusal :=
  match fetch s with
  | .error e => .fault e
  | .ok ir =>
    match decode ir with
    | .error why => .refused (.unassignedOpcode why)
    | .ok i => exec i s

/-- The core at an instruction boundary, after the controller: in Break mode nothing; else an interrupt if requested and
enabled; else the instruction at pc (10_state.md R47, 60_exceptions.md R292, R310). -/
def coreStep (s : State) : Host.Outcome State Fault Refusal :=
  if s.breakMode then .next s
  else if s.irq && s.gie then settle (interruptEntry s.pc s)
  else runFetched s

/-- The instruction cycle: a requested reset first, then the controller, the core, the environment (10_state.md R47,
60_exceptions.md R292). -/
def instructionCycle (s : State) : Host.Outcome State Fault Refusal :=
  match s.resetRequest with
  | some cause => .next (environment (applyReset cause s))
  | none => afterCore (coreStep (controllerTick s))

/-- A word placed where the next step fetches, as a host that loads program memory does (00_scope.md R9): nothing pending that
would run first, and the word at pc (at the first word of program RAM where pc is at no memory). -/
def placeFetchWord (s : State) (w : Word) : State :=
  let t := { s with breakMode := false, irq := false, resetRequest := none, flashOp := none }
  if s.params.inPram s.pc then { t with pram := wordWrite Layout.unlistedRam s.pram s.pc w }
  else if s.params.inFlash s.pc then { t with flash := wordWrite Layout.unlistedFlash s.flash s.pc w }
  else
    { t with pc := s.params.pramBase, pram := wordWrite Layout.unlistedRam s.pram s.params.pramBase w }

end Sys2Proof.Machine
end

