-- ==== Sys2Proof/Machine/Step.lean ====
section
/-! DEFINITION. The step of the machine, and the state with an instruction placed where the step fetches. -/

namespace Sys2Proof.Machine

/-- One step (10_state.md R47). -/
def step (s : State) : Host.Outcome State Fault Refusal := instructionCycle s

/-- The state whose next step fetches and runs the instruction of the bits `w` (log entry 31). -/
def State.withFetchWord (s : State) (nbits w : Nat) : State :=
  placeFetchWord s (BitVec.ofNat 16 (w % 2 ^ nbits))

end Sys2Proof.Machine
end

