-- ==== Sys2Proof/Machine/Timing.lean ====
section
/-! DEFINITION. Cycle counts (70_reset_and_hazards.md R335, R336). No rule of state change depends on them; they are a function of the
instruction, the state it starts in and the state it leaves. They are those of execution from program RAM; a fetch from flash is slower by a
factor that no source gives (R337), which they leave out. DESIGN CHOICE (log entry 47). -/

namespace Sys2Proof.Machine

/-- An instruction that writes its `fr` operand: 3 cycles when the operand is PCL, else 1 (R335). -/
def fileWriteCycles (f : FileOperand) (s : State) : Nat :=
  match effectiveAddress f s with
  | .ok a => if a = Layout.addrPcl then 3 else 1
  | .error _ => 1

/-- A `push`, whose write at SP may reach PCL (R335, log entry 29). -/
def pushCycles (s : State) : Nat := if s.sp = Layout.addrPcl then 3 else 1

/-- A skip form: 1 when it does not skip, 2 when it does, 1 more for each extender passed over. The words passed are
counted by pc, which moves by 1, or by 2 and 1 for each extender (R335, R336). -/
def skipCycles (s t : State) : Nat := (t.pc - s.pc).toNat

/-- `iread` and `ireadi`: 4 when blocking, 1 when not (R335, 46_system_control.md R257, R258). -/
def readCycles (s : State) : Nat :=
  match s.params.regionOf s.addr with
  | .programRam => 4
  | .flash => if s.params.inFlash s.pc then 4 else 1
  | .external => 1
  | .unbacked => 1

/-- `iwrite` and `iwritei`: 4 when blocking, 1 when not; 1 where no operation is performed (R335, log entry 29). -/
def writeCycles (s : State) : Nat :=
  match s.params.regionOf s.addr with
  | .programRam => 4
  | .flash => 1
  | .external => 1
  | .unbacked => 1

/-- The cycles of an instruction that started in `s` and left `t` (R335), the same for a pc in flash as for one in program RAM, although R337
says that a fetch from flash is slower. DESIGN CHOICE, unsafe for a claim about time (log entry 47). -/
def cycles (i : Instr) (s t : State) : Nat :=
  match i with
  | .movFrW f => fileWriteCycles f s
  | .cmpWFr _ => 1
  | .clrFr f => fileWriteCycles f s
  | .subWFr _ => 1
  | .subFrW f => fileWriteCycles f s
  | .decWFr _ => 1
  | .decFr f => fileWriteCycles f s
  | .orWFr _ => 1
  | .orFrW f => fileWriteCycles f s
  | .andWFr _ => 1
  | .andFrW f => fileWriteCycles f s
  | .xorWFr _ => 1
  | .xorFrW f => fileWriteCycles f s
  | .addWFr _ => 1
  | .addFrW f => fileWriteCycles f s
  | .movWFr _ => 1
  | .testFr f => fileWriteCycles f s
  | .notWFr _ => 1
  | .notFr f => fileWriteCycles f s
  | .incWFr _ => 1
  | .incFr f => fileWriteCycles f s
  | .decszWFr _ => skipCycles s t
  | .decszFr _ => skipCycles s t
  | .rrWFr _ => 1
  | .rrFr f => fileWriteCycles f s
  | .rlWFr _ => 1
  | .rlFr f => fileWriteCycles f s
  | .swapWFr _ => 1
  | .swapFr f => fileWriteCycles f s
  | .incszWFr _ => skipCycles s t
  | .incszFr _ => skipCycles s t
  | .csneWFr _ => skipCycles s t
  | .cseWFr _ => skipCycles s t
  | .pushFr _ => pushCycles s
  | .popFr f => fileWriteCycles f s
  | .subcWFr _ => 1
  | .subcFrW f => fileWriteCycles f s
  | .decsnzWFr _ => skipCycles s t
  | .decsnzFr _ => skipCycles s t
  | .muluWFr _ => 1
  | .mulsWFr _ => 1
  | .incsnzWFr _ => skipCycles s t
  | .incsnzFr _ => skipCycles s t
  | .addcWFr _ => 1
  | .addcFrW f => fileWriteCycles f s
  | .loadh _ => 1
  | .loadl _ => 1
  | .muluWLit _ => 1
  | .mulsWLit _ => 1
  | .pushLit _ => pushCycles s
  | .csneWLit _ => skipCycles s t
  | .cseWLit _ => skipCycles s t
  | .retw _ => 3
  | .cmpWLit _ => 1
  | .subWLit _ => 1
  | .addWLit _ => 1
  | .movWLit _ => 1
  | .orWLit _ => 1
  | .andWLit _ => 1
  | .xorWLit _ => 1
  | .clrbFrBit f _ => fileWriteCycles f s
  | .setbFrBit f _ => fileWriteCycles f s
  | .snbFrBit _ _ => skipCycles s t
  | .sbFrBit _ _ => skipCycles s t
  | .call _ => 3
  | .jmp _ => 3
  | .nop => 1
  | .brk => 1
  | .retnp => 3
  | .ferase => 1
  | .cwdt => 1
  | .brkx => 2
  | .int => 3
  | .ret => 3
  | .reti _ => 3
  | .page _ => 1
  | .iwrite => writeCycles s
  | .iread => readCycles s
  | .fwrite => 1
  | .fread => 1
  | .iwritei => writeCycles s
  | .ireadi => readCycles s
  | .speed _ => 1

/-- Interrupt entry (60_exceptions.md R285, 70_reset_and_hazards.md R339). -/
def interruptEntryCycles : Nat := 3

end Sys2Proof.Machine
end

