-- ==== Sys2Proof/Safety.lean ====
section
/-! DEFINITION. What counts as a safe state and a safe step, in the terms the statements use: the invariant every step keeps, the
address an instruction stores to, and which faults are the manual's own prohibitions; what the parameters must satisfy. -/

namespace Sys2Proof.Machine

/-- What the spec says of the OPEN parameters of 00_scope.md R5. The register addresses lie in 0x01..0x7F, and none is another's or a
printed one (10_state.md R41, R44); program RAM has 8K words and flash 32K, with the words 0x01C0 and 0xC180 to 0xC1FF that the examples
show there (R5, 20_memory.md R74); the reset vector is a word of flash (70_reset_and_hazards.md R321); FBUSY, GIE and INT_EN are three bits
(10_state.md R38), and GIE and INT_EN lie in XCFG, FCFG, TCTRL or a register that the core does not name: every other register of the
core is whole without them (R43; log entry 5). That flash is whole erase blocks is the model's
(log entry 45). -/
structure Params.wf (p : Params) : Prop where
  addressesInRange : ∀ e ∈ p.registers, 1 ≤ e.1.toNat ∧ e.1.toNat ≤ 0x7F
  addressesDistinct : (Layout.addrS1rcfg :: p.registers.map Prod.fst).Nodup
  pramSize : p.pramEnd.toNat + 1 = p.pramBase.toNat + Layout.pramWords
  flashSize : p.flashEnd.toNat + 1 = p.flashBase.toNat + Layout.flashWords
  pramExample : p.pramBase.toNat ≤ 0x01C0 ∧ 0x01C0 ≤ p.pramEnd.toNat
  flashExample : p.flashBase.toNat ≤ 0xC180 ∧ 0xC1FF ≤ p.flashEnd.toNat
  flashBlocks : p.flashBase.toNat % Layout.eraseBlockWords = 0
  resetVectorInFlash : p.inFlash p.resetVector = true
  bitsInRange : ∀ q ∈ [p.gie, p.intEn], 1 ≤ q.address.toNat ∧ q.address.toNat ≤ 0x7F ∧
    p.registerAt q.address ∈ [.xcfg, .fcfg, .tctrl, .platform]
  bitsDistinct : p.gie ≠ p.intEn ∧ p.gie ≠ { address := p.addrXcfg, bit := p.fbusyBit } ∧
    p.intEn ≠ { address := p.addrXcfg, bit := p.fbusyBit }

/-- The byte address lies in program RAM (20_memory.md R74, R75). -/
abbrev Params.ramByte (p : Params) (x : ByteAddress) : Prop :=
  2 * p.pramBase.toNat ≤ x.toNat ∧ x.toNat ≤ 2 * p.pramEnd.toNat + 1

/-- The byte address lies in flash (20_memory.md R74, R75). -/
abbrev Params.flashByte (p : Params) (x : ByteAddress) : Prop :=
  2 * p.flashBase.toNat ≤ x.toNat ∧ x.toNat ≤ 2 * p.flashEnd.toNat + 1

/-- The pending operation is one an instruction may issue: its address is in the region of its kind, even, and for an erase
512-byte aligned (46_system_control.md R254 to R259). -/
def FlashOp.legal (p : Params) (op : FlashOp) : Bool :=
  match op.kind with
  | .erase => p.addrInFlash op.addr && op.addr.extractLsb' 0 9 == 0
  | .fread => p.addrInFlash op.addr && op.addr.extractLsb' 0 1 == 0
  | .fwrite => p.addrInFlash op.addr && op.addr.extractLsb' 0 1 == 0
  | .ireadFlash => p.addrInFlash op.addr && op.addr.extractLsb' 0 1 == 0
  | .extRead => p.regionOf op.addr == .external
  | .extWrite => p.regionOf op.addr == .external && Config.externalRam op.addr

/-- The slot is empty or holds a legal operation. -/
def flashSlotLegal (p : Params) : Option FlashOp → Bool
  | none => true
  | some op => op.legal p

/-- The invariant of the machine: the parameters well-formed, the three memories in canonical form and inside their regions
(10_state.md R40, 20_memory.md R74), at most 16 return addresses (10_state.md R34), XCFG, FCFG and TCTRL as reset leaves them but for the
control bits, since nothing writes them (10_state.md R38, R43), a legal operation in the controller's slot (46_system_control.md R252). -/
structure State.Inv (s : State) : Prop where
  paramsWf : s.params.wf
  dataWf : Memory.wf Layout.unlistedRam s.data
  dataWithin : Memory.within Layout.dataBase Layout.dataEnd s.data
  pramWf : Memory.wf Layout.unlistedRam s.pram
  pramWithin : Memory.within (2 * s.params.pramBase.toNat) (2 * s.params.pramEnd.toNat + 2) s.pram
  flashWf : Memory.wf Layout.unlistedFlash s.flash
  flashWithin : Memory.within (2 * s.params.flashBase.toNat) (2 * s.params.flashEnd.toNat + 2) s.flash
  callDepth : s.callStack.length ≤ Layout.callStackDepth
  controlBytes : s.xcfg = State.reset.xcfg ∧ s.fcfg = State.reset.fcfg ∧ s.tctrl = State.reset.tctrl
  slot : flashSlotLegal s.params s.flashOp = true

/-- The effective address of an operand, if it has one. -/
def operandAddress (f : FileOperand) (s : State) : Option Word :=
  match effectiveAddress f s with
  | .ok a => some a
  | .error _ => none

/-- The data address an instruction writes as a file register, if any: the `fr` destination, or the slot of a push. -/
def storeAddress (i : Instr) (s : State) : Option Word :=
  match i with
  | .movFrW f => operandAddress f s
  | .cmpWFr _ => none
  | .clrFr f => operandAddress f s
  | .subWFr _ => none
  | .subFrW f => operandAddress f s
  | .decWFr _ => none
  | .decFr f => operandAddress f s
  | .orWFr _ => none
  | .orFrW f => operandAddress f s
  | .andWFr _ => none
  | .andFrW f => operandAddress f s
  | .xorWFr _ => none
  | .xorFrW f => operandAddress f s
  | .addWFr _ => none
  | .addFrW f => operandAddress f s
  | .movWFr _ => none
  | .testFr f => operandAddress f s
  | .notWFr _ => none
  | .notFr f => operandAddress f s
  | .incWFr _ => none
  | .incFr f => operandAddress f s
  | .decszWFr _ => none
  | .decszFr f => operandAddress f s
  | .rrWFr _ => none
  | .rrFr f => operandAddress f s
  | .rlWFr _ => none
  | .rlFr f => operandAddress f s
  | .swapWFr _ => none
  | .swapFr f => operandAddress f s
  | .incszWFr _ => none
  | .incszFr f => operandAddress f s
  | .csneWFr _ => none
  | .cseWFr _ => none
  | .pushFr _ => some s.sp
  | .popFr f => operandAddress f s
  | .subcWFr _ => none
  | .subcFrW f => operandAddress f s
  | .decsnzWFr _ => none
  | .decsnzFr f => operandAddress f s
  | .muluWFr _ => none
  | .mulsWFr _ => none
  | .incsnzWFr _ => none
  | .incsnzFr f => operandAddress f s
  | .addcWFr _ => none
  | .addcFrW f => operandAddress f s
  | .loadh _ => none
  | .loadl _ => none
  | .muluWLit _ => none
  | .mulsWLit _ => none
  | .pushLit _ => some s.sp
  | .csneWLit _ => none
  | .cseWLit _ => none
  | .retw _ => none
  | .cmpWLit _ => none
  | .subWLit _ => none
  | .addWLit _ => none
  | .movWLit _ => none
  | .orWLit _ => none
  | .andWLit _ => none
  | .xorWLit _ => none
  | .clrbFrBit f _ => operandAddress f s
  | .setbFrBit f _ => operandAddress f s
  | .snbFrBit _ _ => none
  | .sbFrBit _ _ => none
  | .call _ => none
  | .jmp _ => none
  | .nop => none
  | .brk => none
  | .retnp => none
  | .ferase => none
  | .cwdt => none
  | .brkx => none
  | .int => none
  | .ret => none
  | .reti _ => none
  | .page _ => none
  | .iwrite => none
  | .iread => none
  | .fwrite => none
  | .fread => none
  | .iwritei => none
  | .ireadi => none
  | .speed _ => none

/-- The instructions that write STATUS as their own effect: the flag writers of 10_state.md R26, and `page`, `ret`, `retw`, `reti`.
Every other instruction changes STATUS only as a file register it is aimed at. -/
def writesStatus : Instr → Bool
  | .movFrW _ => false
  | .cmpWFr _ => true
  | .clrFr _ => true
  | .subWFr _ => true
  | .subFrW _ => true
  | .decWFr _ => true
  | .decFr _ => true
  | .orWFr _ => true
  | .orFrW _ => true
  | .andWFr _ => true
  | .andFrW _ => true
  | .xorWFr _ => true
  | .xorFrW _ => true
  | .addWFr _ => true
  | .addFrW _ => true
  | .movWFr _ => true
  | .testFr _ => true
  | .notWFr _ => true
  | .notFr _ => true
  | .incWFr _ => true
  | .incFr _ => true
  | .decszWFr _ => false
  | .decszFr _ => false
  | .rrWFr _ => true
  | .rrFr _ => true
  | .rlWFr _ => true
  | .rlFr _ => true
  | .swapWFr _ => false
  | .swapFr _ => false
  | .incszWFr _ => false
  | .incszFr _ => false
  | .csneWFr _ => false
  | .cseWFr _ => false
  | .pushFr _ => false
  | .popFr _ => false
  | .subcWFr _ => true
  | .subcFrW _ => true
  | .decsnzWFr _ => false
  | .decsnzFr _ => false
  | .muluWFr _ => false
  | .mulsWFr _ => false
  | .incsnzWFr _ => false
  | .incsnzFr _ => false
  | .addcWFr _ => true
  | .addcFrW _ => true
  | .loadh _ => false
  | .loadl _ => false
  | .muluWLit _ => false
  | .mulsWLit _ => false
  | .pushLit _ => false
  | .csneWLit _ => false
  | .cseWLit _ => false
  | .retw _ => true
  | .cmpWLit _ => true
  | .subWLit _ => true
  | .addWLit _ => true
  | .movWLit _ => false
  | .orWLit _ => true
  | .andWLit _ => true
  | .xorWLit _ => true
  | .clrbFrBit _ _ => false
  | .setbFrBit _ _ => false
  | .snbFrBit _ _ => false
  | .sbFrBit _ _ => false
  | .call _ => false
  | .jmp _ => false
  | .nop => false
  | .brk => false
  | .retnp => false
  | .ferase => false
  | .cwdt => false
  | .brkx => false
  | .int => false
  | .ret => true
  | .reti _ => true
  | .page _ => true
  | .iwrite => false
  | .iread => false
  | .fwrite => false
  | .fread => false
  | .iwritei => false
  | .ireadi => false
  | .speed _ => false

/-- A register accepts a file-register write of `v`: it is one software may write (10_state.md R43), and WD and BO
stay (R25). -/
def registerAccepts (r : Register) (v : Byte) (s : State) : Bool :=
  match r with
  | .status => (v ^^^ s.status) &&& 0x18 == 0
  | .xcfg => false
  | .pch => false
  | .spdreg => false
  | .fcfg => false
  | .tctrl => false
  | .ipch => false
  | .ipcl => false
  | .callh => false
  | .calll => false
  | .addrsel => true
  | .addrx => true
  | .iph => true
  | .ipl => true
  | .sph => true
  | .spl => true
  | .pcl => true
  | .wreg => true
  | .dph => true
  | .dpl => true
  | .mulh => true
  | .addrh => true
  | .addrl => true
  | .datah => true
  | .datal => true
  | .intvech => true
  | .intvecl => true
  | .intspd => true
  | .t0tmr => true
  | .platform => true

/-- The address accepts a file-register write of `v` (10_state.md R40, R43). -/
def writeAccepts (a : Word) (v : Byte) (s : State) : Bool :=
  a != 0 && decide (a.toNat < 0x1000) && (decide (0x80 ≤ a.toNat) || registerAccepts (s.params.registerAt a) v s)

/-- The fault is the spec's `Undefined`: software broke a rule the manual states. The others are `Unspecified`: no source
says what happens (00_scope.md R8). -/
def Fault.isUndefined : Fault → Bool
  | .offsetBelow20 => true
  | .flashAccessWhileBusy => true
  | .flashInstructionWhileBusy => true
  | .flashInstructionFromFlash => true
  | .dataAddressZero => false
  | .dataAddressBeyond4K => false
  | .pclCarry => false
  | .skipOnPcl => false
  | .unwritableRegister => false
  | .fbusyReadOnly => false
  | .statusWdBo => false
  | .flagWriterTargetsStatus => false
  | .unbackedProgramAddress => false
  | .oddAddr => false
  | .callStackOverflow => false
  | .callStackUnderflow => false
  | .popDependsOnSp => false
  | .retiOutsideInterrupt => false
  | .nestedInterrupt => false
  | .eraseBlockUnaligned => false
  | .programAccessWhileBusy => false
  | .addrlCarry => false
  | .writesPrefetchedWord => false
  | .ireadiOutside => false
  | .iwriteiOutside => false
  | .skipUnbounded => false

/-- The step has a next state: the spec predicts what the hardware does. -/
def State.Predicted (s : State) : Prop := ∃ t, step s = .next t

/-! ### The shapes of the statements -/

/-- STATUS with C, DC and Z at the given values and bits 7:3 kept (10_state.md R25, R26). -/
def withFlags (status : Byte) (c dc z : Bool) : Byte :=
  status.extractLsb' 3 5 ++ BitVec.ofBool z ++ BitVec.ofBool dc ++ BitVec.ofBool c

/-- STATUS with Z at the given value and every other bit kept (10_state.md R25, R26). -/
def withZero (status : Byte) (z : Bool) : Byte :=
  status.extractLsb' 3 5 ++ BitVec.ofBool z ++ status.extractLsb' 0 2

/-- STATUS with C at the given value and every other bit kept (10_state.md R25, R26). -/
def withCarry (status : Byte) (c : Bool) : Byte := status.extractLsb' 1 7 ++ BitVec.ofBool c

/-- In state `s` the instruction stores `r` as a file register at address `a` (10_state.md R43). Where the address accepts `r`,
the next state is `u` with that one write made; where it does not, the instruction stops. -/
def StoresAt (i : Instr) (a : Word) (r : Byte) (u s : State) : Prop :=
  (writeAccepts a r s = true → ∃ t, writeFile a r u = .ok t ∧ exec i s = .next t) ∧
  (writeAccepts a r s = false → ∃ e, exec i s = .fault e)

/-- The `n` words from pc + 1 on are page, loadh, loadl or breakx, and the readable word after them is none of these
(30_encoding.md R110, R111). -/
def SkipsOver (n : Nat) (s : State) : Prop :=
  (∀ j < n, ∃ x i, pmemRead s (s.pc + 1 + BitVec.ofNat 16 j) = .ok x ∧ decode x = .ok i ∧
    ((∃ p, i = .page p) ∨ (∃ k, i = .loadh k) ∨ (∃ k, i = .loadl k) ∨ i = .brkx)) ∧
  ∃ w, pmemRead s (s.pc + 1 + BitVec.ofNat 16 n) = .ok w ∧
    ∀ i, decode w = .ok i → (∀ p, i ≠ .page p) ∧ (∀ k, i ≠ .loadh k) ∧ (∀ k, i ≠ .loadl k) ∧ i ≠ .brkx

/-- In state `s` the instruction leaves `u`, and when the condition holds `u` with pc at SkipTarget (30_encoding.md R110). It stops
exactly where the walk over the skipped words stops. -/
def SkipsWhen (c : Bool) (i : Instr) (u s : State) : Prop :=
  (c = false → exec i s = .next u) ∧
  (∀ p, c = true → skipTarget s = .ok p → exec i s = .next { u with pc := p }) ∧
  (∀ e, c = true → skipTarget s = .error e → exec i s = .fault e)

/-- A count-and-skip form with destination `fr`: `r` is stored at `a` whether or not the form skips (42_compare_skip.md R194). -/
def CountsAt (i : Instr) (a : Word) (r : Byte) (c : Bool) (s : State) : Prop :=
  (writeAccepts a r s = true → ∃ t, writeFile a r { s with pc := s.pc + 1 } = .ok t ∧ SkipsWhen c i t s) ∧
  (writeAccepts a r s = false → ∃ e, exec i s = .fault e)

/-- The controller's operation as an instruction issues it, with the free latency (46_system_control.md R252, log entry 14). -/
def issued (kind : FlashKind) (a : ByteAddress) (d : Word) (s : State) : Option FlashOp :=
  some { kind := kind, addr := a, data := d, wait := Config.flashLatency s.time }

end Sys2Proof.Machine
end

