-- ==== Sys2Proof/Certificates/Slice0/Obligations.lean ====
section
/-! DEFINITION. The statements. A statement about an instruction gives its next state as one record: every field it does not name is
unchanged. Register addresses the spec does not print, region bounds, control-bit places and the erased word are the parameters
`s.params` of the machine (00_scope.md R5): a statement holds for all values of them, or for all that are well-formed. `Config` constants are free values: a statement that mentions one holds for every value. -/

section Statements

open Sys2Proof Sys2Proof.Machine

/-! ### Encoding -/

/-- Decoding the word of a well-formed instruction gives the instruction back, with every operand (30_encoding.md R106, R108). -/
def Obligations.DecodeInvertsEncode : Prop :=
  ∀ i : Instr, i.wellFormed = true → decode (encode i) = .ok i

/-- A word that decodes is the word of the instruction it decodes to, and that instruction is well-formed: each word has one meaning
and no bit of it is dropped (30_encoding.md R106, R108, R109). -/
def Obligations.EncodeInvertsDecode : Prop :=
  ∀ (w : Word) (i : Instr), decode w = .ok i → i.wellFormed = true ∧ encode i = w

/-- Words written out from the spec's examples and its opcode map decode to their instructions (30_encoding.md R103, R108). -/
def Obligations.SpecWordsDecode : Prop :=
  decode 0x1699 = .ok (.andFrW (.direct 0x99)) ∧ decode 0x7E0F = .ok (.andWLit 0x0F) ∧
  decode 0x5499 = .ok (.mulsWFr (.direct 0x99)) ∧ decode 0x2183 = .ok (.movWFr (.spOffset 3)) ∧
  decode 0x8E99 = .ok (.clrbFrBit (.direct 0x99) 7) ∧ decode 0xB40B = .ok (.sbFrBit (.direct 0x0B) 2) ∧
  decode 0x42F0 = .ok (.cseWFr (.direct 0xF0)) ∧ decode 0x44FE = .ok (.pushFr (.direct 0xFE)) ∧
  decode 0x000C = .ok (.reti 4) ∧ decode 0x0011 = .ok (.page 1) ∧ decode 0x001B = .ok .fread ∧
  decode 0x78FF = .ok (.retw 0xFF) ∧ decode 0xC000 = .ok (.call 0) ∧ decode 0x2000 = .ok (.movWFr .indirect)

/-- Exactly the unassigned words have no decoding, and a step that fetches one is refused (30_encoding.md R109). -/
def Obligations.UnassignedWordsAreRefused : Prop :=
  (∀ w : Word, (∃ why, decode w = .error why) ↔
    ((0x001E ≤ w.toNat ∧ w.toNat ≤ 0x00FF) ∨ (0x5200 ≤ w.toNat ∧ w.toNat ≤ 0x53FF) ∨
     (0x5600 ≤ w.toNat ∧ w.toNat ≤ 0x57FF) ∨ (0x6000 ≤ w.toNat ∧ w.toNat ≤ 0x6FFF) ∨
     (0x7500 ≤ w.toNat ∧ w.toNat ≤ 0x75FF))) ∧
  (∀ (s : State) (w : Word) (why : DecodeReject),
    s.resetRequest = none → s.breakMode = false → (s.irq && s.gie) = false →
    fetch (controllerTick s) = .ok w → decode w = .error why → step s = .refused (.unassignedOpcode why))

/-! ### The machine -/

/-- The machine after reset has the invariant. -/
def Obligations.InvariantHoldsAtReset : Prop := State.reset.Inv

/-- Every step keeps the invariant: parameters well-formed, memories canonical and inside their regions, at most 16 return addresses, XCFG,
FCFG and TCTRL as reset leaves them but for FBUSY, GIE and INT_EN (their value is the model's, log entry 6), a legal controller operation
(10_state.md R34, R38, R40, R43; 20_memory.md R74; 46_system_control.md R252). No step changes the parameters (00_scope.md R5). -/
def Obligations.StepKeepsInvariant : Prop :=
  ∀ s t : State, step s = .next t → t.params = s.params ∧ (s.Inv → t.Inv)

/-- When no reset is requested, Break mode is off and no enabled interrupt is requested, a step is the controller's move, then `exec`
of the instruction at pc (10_state.md R47), then the environment's move. That last move is the model's (log entries 15, 17 to 20), and so
is its count of boundaries (log entry 36); it changes only the request line, the requested reset, the timer, the watchdog and that
count, and DATA while a read is pending. -/
def Obligations.StepRunsDecodedInstruction : Prop :=
  (∀ (s : State) (w : Word) (i : Instr),
    s.resetRequest = none → s.breakMode = false → (s.irq && s.gie) = false →
    fetch (controllerTick s) = .ok w → decode w = .ok i →
    step s = afterCore (exec i (controllerTick s))) ∧
  (∀ t : State, ∃ u, afterCore (.next t) = .next u ∧
    u = { t with irq := u.irq, resetRequest := u.resetRequest, time := t.time + 1, t0tmr := u.t0tmr,
                 t0Prescaler := u.t0Prescaler, wdtCounter := u.wdtCounter, wdtPrescaler := u.wdtPrescaler,
                 datah := u.datah, datal := u.datal } ∧
    ((∀ op, t.flashOp = some op → op.kind.isRead = false) → u.datah = t.datah ∧ u.datal = t.datal)) ∧
  (∀ e : Fault, afterCore (.fault e) = .fault e) ∧ (∀ r : Refusal, afterCore (.refused r) = .refused r)

/-- An assigned word placed with `withFetchWord` is the one the very next step runs (20_memory.md R78, log entry 31). -/
def Obligations.WithFetchWordRunsTheWord : Prop :=
  ∀ (s : State) (w : Word) (i : Instr), s.Inv → decode w = .ok i →
    step (s.withFetchWord 16 w.toNat) = afterCore (exec i (s.withFetchWord 16 w.toNat))

/-- What the spec decides of the state after reset: the vector 0x0000, an empty call stack, no controller operation, FBUSY and GIE
0, Break mode off, no interrupt taken (10_state.md R46). -/
def Obligations.ResetValues : Prop :=
  State.reset.intvech = 0x00 ∧ State.reset.intvecl = 0x00 ∧ State.reset.callStack = [] ∧ State.reset.flashOp = none ∧
  State.reset.fbusy = false ∧ State.reset.gie = false ∧ State.reset.breakMode = false ∧ State.reset.inIsr = false

/-- A requested reset comes before all else. pc goes to the reset vector. Every other item takes its value of `State.reset` (the spec's
values, and the values the model chose in log entries 6, 7, 20 and 37), but flash and the parameters are kept, WD and BO record a watchdog
reset and a brown-out by free values, and the count of boundaries runs on (70_reset_and_hazards.md R320, R322; 60_exceptions.md R292, R302, R306). -/
def Obligations.ResetStep : Prop :=
  ∀ (s : State) (c : ResetCause), s.resetRequest = some c →
    step s = afterCore (.next { State.reset with
      pc := s.params.resetVector, flash := s.flash, params := s.params, time := s.time,
      status := match c with
        | .watchdog => State.reset.status &&& 0xEF ||| (if Config.wdAfterWatchdogReset then 0x10 else 0x00)
        | .brownOut => State.reset.status &&& 0xF7 ||| (if Config.boAfterBrownOut then 0x08 else 0x00)
        | .powerOn => State.reset.status
        | .other => State.reset.status })

/-- The watchdog requests a reset exactly when it is enabled and its counter has reached its period; a step never asks for one
otherwise (60_exceptions.md R301, R302). The period's place in the count, which never wraps, is the model's (log entry 19), and so is the order:
the time-out goes before another cause at the same boundary (log entry 46). -/
def Obligations.WatchdogResetsWhenExpired : Prop :=
  ∀ s t : State, step s = .next t →
    (t.resetRequest = some .watchdog ↔ Config.watchdogEnabled = true ∧ Config.watchdogPeriod ≤ t.wdtCounter)

/-! ### Operands and file registers -/

/-- EA(f) for the nine bits of the operand field, by the mode they select (30_encoding.md R103, R104). -/
def Obligations.EffectiveAddressRule : Prop :=
  ∀ (f : BitVec 9) (s : State),
    (f.toNat = 0 → effectiveAddress (decodeFile f) s = .ok (s.iph ++ s.ipl)) ∧
    (1 ≤ f.toNat → f.toNat ≤ 0x0FF → effectiveAddress (decodeFile f) s = .ok (BitVec.ofNat 16 f.toNat)) ∧
    (0x100 ≤ f.toNat → f.toNat ≤ 0x17F →
      effectiveAddress (decodeFile f) s =
        (if ((s.dph ++ s.dpl : Word) + BitVec.ofNat 16 (f.toNat % 128)).toNat < 0x20 then .error .offsetBelow20
         else .ok ((s.dph ++ s.dpl : Word) + BitVec.ofNat 16 (f.toNat % 128)))) ∧
    (0x180 ≤ f.toNat →
      effectiveAddress (decodeFile f) s =
        (if ((s.sph ++ s.spl : Word) + BitVec.ofNat 16 (f.toNat % 128)).toNat < 0x20 then .error .offsetBelow20
         else .ok ((s.sph ++ s.spl : Word) + BitVec.ofNat 16 (f.toNat % 128))))

/-- The file-register read x[a] (10_state.md R42). Addresses 0x04..0x07, 0x09, 0x0B, 0x0C, 0x0D are printed; the other register addresses and
the places of FBUSY, GIE and INT_EN, which read in the byte at their address (R38), are parameters (log entries 2, 5). A register that is only named, and a platform register, reads as a free value (log
entries 10, 11). -/
def Obligations.FileRegisterRead : Prop :=
  ∀ s : State, s.params.wf →
    let p := s.params
    let put (q : BitPlace) (b : Bool) (a : Word) (x : Byte) : Byte :=
      if q.address = a then (if b then x ||| BitVec.twoPow 8 q.bit else x &&& ~~~BitVec.twoPow 8 q.bit) else x
    let bits (a : Word) (x : Byte) : Byte := put p.intEn s.intEn a (put p.gie s.gie a x)
    readFile 0x004 s = .ok s.iph ∧ readFile 0x005 s = .ok s.ipl ∧ readFile 0x006 s = .ok s.sph ∧
    readFile 0x007 s = .ok s.spl ∧ readFile 0x009 s = .ok ((s.pc + 1).extractLsb' 0 8) ∧
    readFile 0x00B s = .ok s.status ∧ readFile 0x00C s = .ok s.dph ∧ readFile 0x00D s = .ok s.dpl ∧
    readFile p.addrAddrsel s = .ok s.addrsel ∧ readFile p.addrAddrx s = .ok s.addrx ∧
    readFile p.addrPch s = .ok ((s.pc + 1).extractLsb' 8 8) ∧ readFile p.addrWreg s = .ok s.w ∧
    readFile p.addrSpdreg s = .ok s.spdreg ∧ readFile p.addrMulh s = .ok s.mulh ∧ readFile p.addrAddrh s = .ok s.addrh ∧
    readFile p.addrAddrl s = .ok s.addrl ∧ readFile p.addrDatah s = .ok s.datah ∧ readFile p.addrDatal s = .ok s.datal ∧
    readFile p.addrIntvech s = .ok s.intvech ∧ readFile p.addrIntvecl s = .ok s.intvecl ∧
    readFile p.addrIntspd s = .ok s.intspd ∧ readFile p.addrFcfg s = .ok (bits p.addrFcfg s.fcfg) ∧
    readFile p.addrTctrl s = .ok (bits p.addrTctrl s.tctrl) ∧
    readFile p.addrXcfg s = .ok (bits p.addrXcfg (put ⟨p.addrXcfg, p.fbusyBit⟩ s.flashOp.isSome p.addrXcfg s.xcfg)) ∧
    readFile p.addrT0tmr s = .ok s.t0tmr ∧
    (∀ a : Word, 1 ≤ a.toNat → a.toNat ≤ 0x7F →
      a ∉ [0x004, 0x005, 0x006, 0x007, 0x009, 0x00B, 0x00C, 0x00D, p.addrAddrsel, p.addrAddrx, p.addrPch, p.addrWreg, p.addrSpdreg,
           p.addrMulh, p.addrAddrh, p.addrAddrl, p.addrDatah, p.addrDatal, p.addrIntvech, p.addrIntvecl, p.addrIntspd, p.addrFcfg,
           p.addrTctrl, p.addrXcfg, p.addrT0tmr] →
      readFile a s = .ok (bits a (Config.platformRead a s.time))) ∧
    (∀ a : Word, 0x080 ≤ a.toNat → a.toNat ≤ 0xFFF → readFile a s = .ok (memRead 0x00 s.data a.toNat)) ∧
    readFile 0x000 s = .error .dataAddressZero ∧
    (∀ a : Word, 0xFFF < a.toNat → readFile a s = .error .dataAddressBeyond4K)

/-- The file-register write x[a] <- v (10_state.md R23, R25, R38, R43; 60_exceptions.md R282). STATUS takes the byte when WD and BO do not
change. XCFG, FCFG and TCTRL stop, whatever lies there, and so do the registers that are only named. GIE and INT_EN take their bits where
their register is none of these (log entry 12). The places of FBUSY, GIE and INT_EN, and the addresses that the spec does not print, are
parameters (log entries 2, 5); a platform register drops the rest of the byte (log entry 10). On `s` whose pc is the next instruction's address. -/
def Obligations.FileRegisterWrite : Prop :=
  ∀ (v : Byte) (s : State), s.params.wf →
    let p := s.params
    writeFile 0x004 v s = .ok { s with iph := v } ∧ writeFile 0x005 v s = .ok { s with ipl := v } ∧
    writeFile 0x006 v s = .ok { s with sph := v } ∧ writeFile 0x007 v s = .ok { s with spl := v } ∧
    writeFile 0x009 v s = .ok { s with pc := s.pc.extractLsb' 8 8 ++ v } ∧
    writeFile 0x00B v s =
      (if v &&& 0x18 = s.status &&& 0x18 then .ok { s with status := v } else .error .statusWdBo) ∧
    writeFile 0x00C v s = .ok { s with dph := v } ∧ writeFile 0x00D v s = .ok { s with dpl := v } ∧
    writeFile p.addrAddrsel v s = .ok { s with addrsel := v } ∧ writeFile p.addrAddrx v s = .ok { s with addrx := v } ∧
    writeFile p.addrWreg v s = .ok { s with w := v } ∧ writeFile p.addrMulh v s = .ok { s with mulh := v } ∧
    writeFile p.addrAddrh v s = .ok { s with addrh := v } ∧ writeFile p.addrAddrl v s = .ok { s with addrl := v } ∧
    writeFile p.addrDatah v s = .ok { s with datah := v } ∧ writeFile p.addrDatal v s = .ok { s with datal := v } ∧
    writeFile p.addrIntvech v s = .ok { s with intvech := v } ∧ writeFile p.addrIntvecl v s = .ok { s with intvecl := v } ∧
    writeFile p.addrIntspd v s = .ok { s with intspd := v } ∧ writeFile p.addrT0tmr v s = .ok { s with t0tmr := v } ∧
    writeFile p.addrXcfg v s =
      .error (if v.getLsbD p.fbusyBit = s.flashOp.isSome then .unwritableRegister else .fbusyReadOnly) ∧
    (∀ a : Word, a ∈ [p.addrPch, p.addrSpdreg, p.addrFcfg, p.addrTctrl, p.addrIpch, p.addrIpcl, p.addrCallh, p.addrCalll] →
      writeFile a v s = .error .unwritableRegister) ∧
    (∀ a : Word, 1 ≤ a.toNat → a.toNat ≤ 0x7F →
      a ∉ [0x004, 0x005, 0x006, 0x007, 0x009, 0x00B, 0x00C, 0x00D, p.addrAddrsel, p.addrAddrx, p.addrPch, p.addrWreg, p.addrSpdreg,
           p.addrMulh, p.addrAddrh, p.addrAddrl, p.addrDatah, p.addrDatal, p.addrIntvech, p.addrIntvecl, p.addrIntspd, p.addrFcfg,
           p.addrTctrl, p.addrXcfg, p.addrIpch, p.addrIpcl, p.addrT0tmr, p.addrCallh, p.addrCalll] →
      writeFile a v s = .ok { s with
        gie := if p.gie.address = a then v.getLsbD p.gie.bit else s.gie
        intEn := if p.intEn.address = a then v.getLsbD p.intEn.bit else s.intEn }) ∧
    (∀ a : Word, 0x080 ≤ a.toNat → a.toNat ≤ 0xFFF →
      writeFile a v s = .ok { s with data := memWrite 0x00 s.data a.toNat v }) ∧
    writeFile 0x000 v s = .error .dataAddressZero ∧
    (∀ a : Word, 0xFFF < a.toNat → writeFile a v s = .error .dataAddressBeyond4K)

/-- A byte written to data memory is read back, and every other address reads as before (20_memory.md R72, R84). -/
def Obligations.DataMemoryReadsBack : Prop :=
  ∀ (a : Word) (v : Byte) (s t : State), Memory.wf 0x00 s.data → 0x080 ≤ a.toNat → writeFile a v s = .ok t →
    readFile a t = .ok v ∧ ∀ b : Word, b ≠ a → readFile b t = readFile b s

/-- An operand that cannot be read stops every instruction that reads it, with the same reason and nothing written (40_logical.md R130). An
operand without an effective address (30_encoding.md R104) also stops those that only write it: `mov fr,w`, `clr fr` and, but for the
`offset(sp)` form, `pop fr`. -/
def Obligations.UnreadableOperandStops : Prop :=
  ∀ (f : FileOperand) (b : BitVec 3) (e : Fault) (s : State),
    (frRead f s = .error e →
      ∀ i ∈ [.andWFr f, .orWFr f, .xorWFr f, .notWFr f, .andFrW f, .orFrW f, .xorFrW f, .notFr f, .addWFr f, .addcWFr f, .subWFr f,
             .subcWFr f, .addFrW f, .addcFrW f, .subFrW f, .subcFrW f, .cmpWFr f, .decWFr f, .incWFr f, .decFr f, .incFr f, .testFr f,
             .rlWFr f, .rrWFr f, .swapWFr f, .rlFr f, .rrFr f, .swapFr f, .mulsWFr f, .muluWFr f, .cseWFr f, .csneWFr f,
             .decszWFr f, .decsnzWFr f, .incszWFr f, .incsnzWFr f, .decszFr f, .decsnzFr f, .incszFr f, .incsnzFr f,
             .sbFrBit f b, .snbFrBit f b, .clrbFrBit f b, .setbFrBit f b, .movWFr f, .pushFr f],
        exec i s = .fault e) ∧
    (effectiveAddress f s = .error e →
      exec (.movFrW f) s = .fault e ∧ exec (.clrFr f) s = .fault e ∧ ((∀ o, f ≠ .spOffset o) → exec (.popFr f) s = .fault e))

/-! ### Logical instructions and moves -/

/-- and, or, xor, not with destination W: the word, the result in W, Z from it, nothing else but pc (40_logical.md R132, R133, R135, R136,
R138, R139, R141). -/
def Obligations.LogicalIntoW : Prop :=
  ∀ (f : FileOperand) (k v : Byte) (s : State),
    let after (r : Byte) : State := { s with pc := s.pc + 1, w := r, status := withZero s.status (decide (r = 0)) }
    exec (.andWLit k) s = .next (after (s.w &&& k)) ∧ exec (.orWLit k) s = .next (after (s.w ||| k)) ∧
    exec (.xorWLit k) s = .next (after (s.w ^^^ k)) ∧
    encode (.andWLit k) = 0x7E#8 ++ k ∧ encode (.orWLit k) = 0x7D#8 ++ k ∧ encode (.xorWLit k) = 0x7F#8 ++ k ∧
    encode (.andWFr f) = 0b0001010#7 ++ encodeFile f ∧ encode (.orWFr f) = 0b0001000#7 ++ encodeFile f ∧
    encode (.xorWFr f) = 0b0001100#7 ++ encodeFile f ∧ encode (.notWFr f) = 0b0010010#7 ++ encodeFile f ∧
    (frRead f s = .ok v →
      exec (.andWFr f) s = .next (after (s.w &&& v)) ∧ exec (.orWFr f) s = .next (after (s.w ||| v)) ∧
      exec (.xorWFr f) s = .next (after (s.w ^^^ v)) ∧ exec (.notWFr f) s = .next (after (0xFF - v)))

/-- and, or, xor, not with destination fr: the result stored at the address read, Z from it, W kept (or written as wreg); STATUS as
destination stops (40_logical.md R130, R131, R134, R137, R140). -/
def Obligations.LogicalIntoFile : Prop :=
  ∀ (f : FileOperand) (a : Word) (v : Byte) (s : State), effectiveAddress f s = .ok a → readFile a s = .ok v →
    let after (r : Byte) : State := { s with pc := s.pc + 1, status := withZero s.status (decide (r = 0)) }
    (a ≠ 0x00B →
      StoresAt (.andFrW f) a (v &&& s.w) (after (v &&& s.w)) s ∧ StoresAt (.orFrW f) a (v ||| s.w) (after (v ||| s.w)) s ∧
      StoresAt (.xorFrW f) a (v ^^^ s.w) (after (v ^^^ s.w)) s ∧ StoresAt (.notFr f) a (0xFF - v) (after (0xFF - v)) s) ∧
    (a = 0x00B → ∀ i ∈ [.andFrW f, .orFrW f, .xorFrW f, .notFr f], exec i s = .fault .flagWriterTargetsStatus)

/-- mov, dec and inc with destination W: the word, the result, Z from it; `mov w,#lit8` writes no flag (41_arithmetic_shift.md R166, R169;
44_data_movement.md R221, R222). -/
def Obligations.MoveAndCountIntoW : Prop :=
  ∀ (f : FileOperand) (k v : Byte) (s : State),
    let after (r : Byte) : State := { s with pc := s.pc + 1, w := r, status := withZero s.status (decide (r = 0)) }
    exec (.movWLit k) s = .next { s with pc := s.pc + 1, w := k } ∧
    encode (.movWLit k) = 0x7C#8 ++ k ∧ encode (.movWFr f) = 0b0010000#7 ++ encodeFile f ∧
    encode (.decWFr f) = 0b0000110#7 ++ encodeFile f ∧ encode (.incWFr f) = 0b0010100#7 ++ encodeFile f ∧
    (frRead f s = .ok v →
      exec (.movWFr f) s = .next (after v) ∧
      exec (.decWFr f) s = .next (after (BitVec.ofNat 8 (v.toNat + 255))) ∧
      exec (.incWFr f) s = .next (after (BitVec.ofNat 8 (v.toNat + 1))))

/-- dec and inc with destination fr: the result stored, Z from it; STATUS as destination stops (41_arithmetic_shift.md R165, R168;
10_state.md R26). -/
def Obligations.DecIncIntoFile : Prop :=
  ∀ (f : FileOperand) (a : Word) (v : Byte) (s : State), effectiveAddress f s = .ok a → readFile a s = .ok v →
    let after (r : Byte) : State := { s with pc := s.pc + 1, status := withZero s.status (decide (r = 0)) }
    (a ≠ 0x00B →
      StoresAt (.decFr f) a (BitVec.ofNat 8 (v.toNat + 255)) (after (BitVec.ofNat 8 (v.toNat + 255))) s ∧
      StoresAt (.incFr f) a (BitVec.ofNat 8 (v.toNat + 1)) (after (BitVec.ofNat 8 (v.toNat + 1))) s) ∧
    (a = 0x00B → ∀ i ∈ [.decFr f, .incFr f], exec i s = .fault .flagWriterTargetsStatus)

/-- `mov fr,w` and `clr fr` write without reading; `test fr` writes back what it read. `clr` sets Z, `test` sets Z from the value, `mov`
no flag. `test` on T0TMR (its address a parameter, log entry 2) clears the prescaler (41_arithmetic_shift.md R164, R167; 44_data_movement.md R220). -/
def Obligations.MoveClearTestFile : Prop :=
  ∀ (f : FileOperand) (a : Word) (v : Byte) (s : State), effectiveAddress f s = .ok a →
    StoresAt (.movFrW f) a s.w { s with pc := s.pc + 1 } s ∧
    (a ≠ 0x00B → StoresAt (.clrFr f) a 0x00 { s with pc := s.pc + 1, status := withZero s.status true } s) ∧
    (a ≠ 0x00B → a ≠ s.params.addrT0tmr → readFile a s = .ok v →
      StoresAt (.testFr f) a v { s with pc := s.pc + 1, status := withZero s.status (decide (v = 0)) } s) ∧
    (s.params.wf → a = s.params.addrT0tmr → exec (.testFr f) s = .next { s with
      pc := s.pc + 1, status := withZero s.status (decide (s.t0tmr = 0)), t0Prescaler := 0 }) ∧
    (a = 0x00B → exec (.clrFr f) s = .fault .flagWriterTargetsStatus ∧ exec (.testFr f) s = .fault .flagWriterTargetsStatus)

/-! ### Arithmetic -/

/-- add with destination W (41_arithmetic_shift.md R153, R154): the word, the sum on unbounded integers cut to eight bits, C its carry, DC
the carry out of bit 3, Z from the eight bits. -/
def Obligations.AdditionIntoW : Prop :=
  ∀ (f : FileOperand) (k v : Byte) (s : State),
    let after (b : Byte) : State := { s with
      pc := s.pc + 1, w := BitVec.ofNat 8 (s.w.toNat + b.toNat)
      status := withFlags s.status (decide (s.w.toNat + b.toNat > 0xFF)) (decide (s.w.toNat % 16 + b.toNat % 16 > 0xF))
        (decide ((s.w.toNat + b.toNat) % 256 = 0)) }
    exec (.addWLit k) s = .next (after k) ∧
    encode (.addWLit k) = 0x7B#8 ++ k ∧ encode (.addWFr f) = 0b0001110#7 ++ encodeFile f ∧
    (frRead f s = .ok v → exec (.addWFr f) s = .next (after v))

/-- addc with destination W (41_arithmetic_shift.md R150, R156): as add, with C as carry-in, which takes part in C and in DC. -/
def Obligations.CarryAdditionIntoW : Prop :=
  ∀ (f : FileOperand) (v : Byte) (s : State), frRead f s = .ok v →
    let c : Nat := (s.status.getLsbD 0).toNat
    exec (.addcWFr f) s = .next { s with
      pc := s.pc + 1, w := BitVec.ofNat 8 (s.w.toNat + v.toNat + c)
      status := withFlags s.status (decide (s.w.toNat + v.toNat + c > 0xFF)) (decide (s.w.toNat % 16 + v.toNat % 16 + c > 0xF))
        (decide ((s.w.toNat + v.toNat + c) % 256 = 0)) }

/-- add and addc with destination fr; STATUS as destination stops, and so does `add pcl,w` when the sum carries
(41_arithmetic_shift.md R150, R152, R155; 10_state.md R23, R26). -/
def Obligations.AdditionIntoFile : Prop :=
  ∀ (f : FileOperand) (a : Word) (v : Byte) (s : State), effectiveAddress f s = .ok a → readFile a s = .ok v →
    let sum (cin : Bool) : Nat := v.toNat + s.w.toNat + cin.toNat
    let after (cin : Bool) : State := { s with
      pc := s.pc + 1
      status := withFlags s.status (decide (sum cin > 0xFF)) (decide (v.toNat % 16 + s.w.toNat % 16 + cin.toNat > 0xF))
        (decide (sum cin % 256 = 0)) }
    (a ≠ 0x00B → ¬(a = 0x009 ∧ sum false > 0xFF) → StoresAt (.addFrW f) a (BitVec.ofNat 8 (sum false)) (after false) s) ∧
    (a = 0x009 → sum false > 0xFF → exec (.addFrW f) s = .fault .pclCarry) ∧
    (a ≠ 0x00B → StoresAt (.addcFrW f) a (BitVec.ofNat 8 (sum (s.status.getLsbD 0))) (after (s.status.getLsbD 0)) s) ∧
    (a = 0x00B → exec (.addFrW f) s = .fault .flagWriterTargetsStatus ∧ exec (.addcFrW f) s = .fault .flagWriterTargetsStatus)

/-- sub with destination W (41_arithmetic_shift.md R158, R159): the word, the operand less W, C and DC 1 exactly where no borrow occurs, Z
from the eight bits. -/
def Obligations.SubtractionIntoW : Prop :=
  ∀ (f : FileOperand) (k v : Byte) (s : State),
    let after (m : Byte) : State := { s with
      pc := s.pc + 1, w := BitVec.ofInt 8 ((m.toNat : Int) - s.w.toNat)
      status := withFlags s.status (decide (s.w.toNat ≤ m.toNat)) (decide (s.w.toNat % 16 ≤ m.toNat % 16)) (decide (m = s.w)) }
    exec (.subWLit k) s = .next (after k) ∧
    encode (.subWLit k) = 0x7A#8 ++ k ∧ encode (.subWFr f) = 0b0000100#7 ++ encodeFile f ∧
    (frRead f s = .ok v → exec (.subWFr f) s = .next (after v))

/-- subc with destination W (41_arithmetic_shift.md R151, R161): as sub, less a borrow-in, the complement of C, which takes part in C, DC
and Z. -/
def Obligations.BorrowSubtractionIntoW : Prop :=
  ∀ (f : FileOperand) (v : Byte) (s : State), frRead f s = .ok v →
    let b : Nat := 1 - (s.status.getLsbD 0).toNat
    exec (.subcWFr f) s = .next { s with
      pc := s.pc + 1, w := BitVec.ofInt 8 ((v.toNat : Int) - s.w.toNat - b)
      status := withFlags s.status (decide (s.w.toNat + b ≤ v.toNat)) (decide (s.w.toNat % 16 + b ≤ v.toNat % 16))
        (decide ((s.w.toNat + b) % 256 = v.toNat)) }

/-- sub and subc with destination fr; STATUS as destination stops (41_arithmetic_shift.md R151, R157, R160; 10_state.md R26). -/
def Obligations.SubtractionIntoFile : Prop :=
  ∀ (f : FileOperand) (a : Word) (v : Byte) (s : State), effectiveAddress f s = .ok a → readFile a s = .ok v →
    let r (bin : Bool) : Byte := BitVec.ofInt 8 ((v.toNat : Int) - s.w.toNat - bin.toNat)
    let after (bin : Bool) : State := { s with
      pc := s.pc + 1
      status := withFlags s.status (decide (s.w.toNat + bin.toNat ≤ v.toNat))
        (decide (s.w.toNat % 16 + bin.toNat ≤ v.toNat % 16)) (decide ((s.w.toNat + bin.toNat) % 256 = v.toNat)) }
    (a ≠ 0x00B →
      StoresAt (.subFrW f) a (r false) (after false) s ∧
      StoresAt (.subcFrW f) a (r (!s.status.getLsbD 0)) (after (!s.status.getLsbD 0)) s) ∧
    (a = 0x00B → exec (.subFrW f) s = .fault .flagWriterTargetsStatus ∧ exec (.subcFrW f) s = .fault .flagWriterTargetsStatus)

/-- cmp: the word; after it C = 1 means the operand is at least W, Z = 1 means equal, DC compares the low nibbles; nothing but STATUS and pc
changes, also with STATUS as operand (41_arithmetic_shift.md R162, R163). -/
def Obligations.CompareWritesFlagsOnly : Prop :=
  ∀ (f : FileOperand) (k v : Byte) (s : State),
    let after (m : Byte) : State := { s with
      pc := s.pc + 1
      status := withFlags s.status (decide (s.w.toNat ≤ m.toNat)) (decide (s.w.toNat % 16 ≤ m.toNat % 16)) (decide (m = s.w)) }
    exec (.cmpWLit k) s = .next (after k) ∧
    encode (.cmpWLit k) = 0x79#8 ++ k ∧ encode (.cmpWFr f) = 0b0000010#7 ++ encodeFile f ∧ (frRead f s = .ok v → exec (.cmpWFr f) s = .next (after v))

/-- rl, rr and swap with destination W: the word; the rotates go through C and write C alone, swap writes no flag (41_arithmetic_shift.md R172, R174,
R176). -/
def Obligations.RotateSwapIntoW : Prop :=
  ∀ (f : FileOperand) (v : Byte) (s : State), frRead f s = .ok v →
    exec (.rlWFr f) s = .next { s with
      pc := s.pc + 1, w := v <<< 1 ||| (if s.status.getLsbD 0 then 0x01 else 0x00)
      status := withCarry s.status (decide (0x80 ≤ v.toNat)) } ∧
    exec (.rrWFr f) s = .next { s with
      pc := s.pc + 1, w := v >>> 1 ||| (if s.status.getLsbD 0 then 0x80 else 0x00)
      status := withCarry s.status (decide (v.toNat % 2 = 1)) } ∧
    exec (.swapWFr f) s = .next { s with pc := s.pc + 1, w := v <<< 4 ||| v >>> 4 } ∧
    encode (.rlWFr f) = 0b0011010#7 ++ encodeFile f ∧ encode (.rrWFr f) = 0b0011000#7 ++ encodeFile f ∧
    encode (.swapWFr f) = 0b0011100#7 ++ encodeFile f

/-- rl, rr and swap with destination fr: the same results stored; the rotates stop with STATUS as destination, swap does not
(41_arithmetic_shift.md R171, R173, R175; 10_state.md R26). -/
def Obligations.RotateSwapIntoFile : Prop :=
  ∀ (f : FileOperand) (a : Word) (v : Byte) (s : State), effectiveAddress f s = .ok a → readFile a s = .ok v →
    (a ≠ 0x00B →
      StoresAt (.rlFr f) a (v <<< 1 ||| (if s.status.getLsbD 0 then 0x01 else 0x00))
        { s with pc := s.pc + 1, status := withCarry s.status (decide (0x80 ≤ v.toNat)) } s ∧
      StoresAt (.rrFr f) a (v >>> 1 ||| (if s.status.getLsbD 0 then 0x80 else 0x00))
        { s with pc := s.pc + 1, status := withCarry s.status (decide (v.toNat % 2 = 1)) } s) ∧
    (a = 0x00B → exec (.rlFr f) s = .fault .flagWriterTargetsStatus ∧ exec (.rrFr f) s = .fault .flagWriterTargetsStatus) ∧
    StoresAt (.swapFr f) a (v <<< 4 ||| v >>> 4) { s with pc := s.pc + 1 } s

/-- clrb and setb: the whole byte read, one bit changed, the whole byte written back, no flag result; on STATUS an ordinary write
(43_bit.md R210, R211, R214). -/
def Obligations.BitWritesIntoFile : Prop :=
  ∀ (f : FileOperand) (b : BitVec 3) (a : Word) (v : Byte) (s : State), effectiveAddress f s = .ok a → readFile a s = .ok v →
    StoresAt (.clrbFrBit f b) a (v &&& ~~~(BitVec.twoPow 8 b.toNat)) { s with pc := s.pc + 1 } s ∧
    StoresAt (.setbFrBit f b) a (v ||| BitVec.twoPow 8 b.toNat) { s with pc := s.pc + 1 } s

/-- muls and mulu: the word, one cycle; MULH || W takes the 16-bit product of the two bytes, sign- or zero-extended; no flag, nothing else
(41_arithmetic_shift.md R177 to R180). -/
def Obligations.MultiplyIntoMulhAndW : Prop :=
  ∀ (f : FileOperand) (k v : Byte) (s : State),
    let after (p : Word) : State := { s with pc := s.pc + 1, mulh := p.extractLsb' 8 8, w := p.extractLsb' 0 8 }
    exec (.mulsWLit k) s = .next (after (s.w.signExtend 16 * k.signExtend 16)) ∧
    exec (.muluWLit k) s = .next (after (s.w.zeroExtend 16 * k.zeroExtend 16)) ∧
    encode (.mulsWLit k) = 0x73#8 ++ k ∧ encode (.muluWLit k) = 0x72#8 ++ k ∧
    encode (.mulsWFr f) = 0b0101010#7 ++ encodeFile f ∧ encode (.muluWFr f) = 0b0101000#7 ++ encodeFile f ∧
    (∀ t, ∀ i ∈ [.mulsWFr f, .mulsWLit k, .muluWFr f, .muluWLit k], cycles i s t = 1) ∧
    (frRead f s = .ok v →
      exec (.mulsWFr f) s = .next (after (s.w.signExtend 16 * v.signExtend 16)) ∧
      exec (.muluWFr f) s = .next (after (s.w.zeroExtend 16 * v.zeroExtend 16)))

/-- The instructions that write one named register, or nothing: loadh DPH, loadl DPL, page PA2:0, speed SPDREG, cwdt the watchdog's
counter and prescaler, nop none (41_arithmetic_shift.md R181; 45_program_control.md R233; 46_system_control.md R261 to R264). -/
def Obligations.ImmediateRegisterWrites : Prop :=
  ∀ (k : Byte) (n : BitVec 3) (s : State),
    exec (.loadh k) s = .next { s with pc := s.pc + 1, dph := k } ∧
    exec (.loadl k) s = .next { s with pc := s.pc + 1, dpl := k } ∧
    exec (.page n) s = .next { s with pc := s.pc + 1, status := n ++ s.status.extractLsb' 0 5 } ∧
    exec (.speed k) s = .next { s with pc := s.pc + 1, spdreg := k } ∧
    exec .cwdt s = .next { s with pc := s.pc + 1, wdtCounter := 0, wdtPrescaler := 0 } ∧
    exec .nop s = .next { s with pc := s.pc + 1 }

/-! ### Skips -/

/-- SkipTarget: past a run of n words that are page, loadh, loadl or breakx, and past the one word after it (30_encoding.md R110, R111).
The bound on the run is the model's (log entry 26). -/
def Obligations.SkipTargetRule : Prop :=
  ∀ (s : State) (n : Nat), n < 65536 → SkipsOver n s → skipTarget s = .ok (s.pc + 1 + BitVec.ofNat 16 n + 1)

/-- cse, csne, sb and snb: nothing but pc changes; pc goes to SkipTarget when the condition holds and advances by 1 when it does not
(42_compare_skip.md R190 to R194; 43_bit.md R212 to R214). -/
def Obligations.CompareAndBitSkips : Prop :=
  ∀ (f : FileOperand) (b : BitVec 3) (k v : Byte) (s : State),
    SkipsWhen (decide (k = s.w)) (.cseWLit k) { s with pc := s.pc + 1 } s ∧
    SkipsWhen (decide (k ≠ s.w)) (.csneWLit k) { s with pc := s.pc + 1 } s ∧
    (frRead f s = .ok v →
      SkipsWhen (decide (v = s.w)) (.cseWFr f) { s with pc := s.pc + 1 } s ∧
      SkipsWhen (decide (v ≠ s.w)) (.csneWFr f) { s with pc := s.pc + 1 } s ∧
      SkipsWhen (decide ((v.toNat / 2 ^ b.toNat) % 2 = 1)) (.sbFrBit f b) { s with pc := s.pc + 1 } s ∧
      SkipsWhen (decide ((v.toNat / 2 ^ b.toNat) % 2 = 0)) (.snbFrBit f b) { s with pc := s.pc + 1 } s)

/-- decsz, decsnz, incsz and incsnz with destination W: the new value in W, the test on it, no flag (42_compare_skip.md R194, R197, R199,
R201, R203). -/
def Obligations.CountAndSkipIntoW : Prop :=
  ∀ (f : FileOperand) (v : Byte) (s : State), frRead f s = .ok v →
    SkipsWhen (decide (v = 0x01)) (.decszWFr f) { s with pc := s.pc + 1, w := BitVec.ofNat 8 (v.toNat + 255) } s ∧
    SkipsWhen (decide (v ≠ 0x01)) (.decsnzWFr f) { s with pc := s.pc + 1, w := BitVec.ofNat 8 (v.toNat + 255) } s ∧
    SkipsWhen (decide (v = 0xFF)) (.incszWFr f) { s with pc := s.pc + 1, w := BitVec.ofNat 8 (v.toNat + 1) } s ∧
    SkipsWhen (decide (v ≠ 0xFF)) (.incsnzWFr f) { s with pc := s.pc + 1, w := BitVec.ofNat 8 (v.toNat + 1) } s

/-- decsz, decsnz, incsz and incsnz with destination fr: the new value stored whether or not they skip, no flag; PCL as destination
stops (42_compare_skip.md R194, R196, R198, R200, R202). -/
def Obligations.CountAndSkipInFile : Prop :=
  ∀ (f : FileOperand) (a : Word) (v : Byte) (s : State), effectiveAddress f s = .ok a → readFile a s = .ok v →
    (a ≠ 0x009 →
      CountsAt (.decszFr f) a (BitVec.ofNat 8 (v.toNat + 255)) (decide (v = 0x01)) s ∧
      CountsAt (.decsnzFr f) a (BitVec.ofNat 8 (v.toNat + 255)) (decide (v ≠ 0x01)) s ∧
      CountsAt (.incszFr f) a (BitVec.ofNat 8 (v.toNat + 1)) (decide (v = 0xFF)) s ∧
      CountsAt (.incsnzFr f) a (BitVec.ofNat 8 (v.toNat + 1)) (decide (v ≠ 0xFF)) s) ∧
    (a = 0x009 → ∀ i ∈ [.decszFr f, .decsnzFr f, .incszFr f, .incsnzFr f], exec i s = .fault .skipOnPcl)

/-- Cycle counts (70_reset_and_hazards.md R335, R336). A skip form takes 1 cycle when it does not skip, and 2 and one for each of the n
extenders it passes when it does. A form that writes its fr operand takes 3 when that is PCL and else 1. The four program-memory
access instructions take 4 when blocking and else 1. jmp, call, the returns and int take 3, breakx 2, the others 1. The model's inferences
(log entry 29): a push that stores at PCL takes 3, int takes 3 when it does nothing, and a write that does nothing takes 1. The counts are
those of execution from program RAM, taken for a pc in flash too: the model's choice (R337, log entry 47). -/
def Obligations.CycleCounts : Prop :=
  (∀ (s t : State) (f : FileOperand) (b : BitVec 3) (k : Byte),
    ∀ i ∈ [.cseWLit k, .csneWLit k, .cseWFr f, .csneWFr f, .sbFrBit f b, .snbFrBit f b, .decszWFr f, .decsnzWFr f, .incszWFr f,
           .incsnzWFr f, .decszFr f, .decsnzFr f, .incszFr f, .incsnzFr f],
      exec i s = .next t →
        (t.pc = s.pc + 1 → cycles i s t = 1) ∧
        (∀ n < 65534, SkipsOver n s → t.pc ≠ s.pc + 1 → cycles i s t = 2 + n)) ∧
  (∀ (s t : State) (f : FileOperand) (b : BitVec 3) (a : Word), effectiveAddress f s = .ok a →
    ∀ i ∈ [.movFrW f, .clrFr f, .subFrW f, .subcFrW f, .addFrW f, .addcFrW f, .decFr f, .incFr f, .orFrW f, .andFrW f, .xorFrW f,
           .notFr f, .testFr f, .rlFr f, .rrFr f, .swapFr f, .clrbFrBit f b, .setbFrBit f b, .popFr f],
      cycles i s t = if a = 0x009 then 3 else 1) ∧
  (∀ (s t : State) (f : FileOperand) (k : Byte), ∀ i ∈ [.pushFr f, .pushLit k],
    cycles i s t = if (s.sph ++ s.spl : Word) = 0x009 then 3 else 1) ∧
  (∀ (s t : State), s.params.wf →
    let adr : ByteAddress := s.addrx ++ s.addrh ++ s.addrl
    (s.params.ramByte adr → ∀ i ∈ [.iread, .ireadi, .iwrite, .iwritei], cycles i s t = 4) ∧
    (s.params.flashByte adr →
      (∀ i ∈ [.iread, .ireadi], cycles i s t =
        if s.params.flashBase.toNat ≤ s.pc.toNat ∧ s.pc.toNat ≤ s.params.flashEnd.toNat then 4 else 1) ∧
      cycles .iwrite s t = 1) ∧
    (¬s.params.ramByte adr → ¬s.params.flashByte adr → cycles .iread s t = 1 ∧ cycles .iwrite s t = 1)) ∧
  (∀ (s t : State) (f : FileOperand) (k : Byte) (m : BitVec 13) (n : BitVec 3),
    cycles (.jmp m) s t = 3 ∧ cycles (.call m) s t = 3 ∧ cycles .ret s t = 3 ∧ cycles .retnp s t = 3 ∧ cycles (.retw k) s t = 3 ∧
    cycles (.reti n) s t = 3 ∧ cycles .int s t = 3 ∧ cycles .brkx s t = 2 ∧
    ∀ i ∈ [.brk, .nop, .cwdt, .page n, .loadh k, .loadl k, .speed k, .ferase, .fread, .fwrite, .movWLit k, .addWLit k, .subWLit k,
           .cmpWLit k, .andWLit k, .orWLit k, .xorWLit k, .mulsWLit k, .muluWLit k, .movWFr f, .addWFr f, .addcWFr f, .subWFr f,
           .subcWFr f, .cmpWFr f, .andWFr f, .orWFr f, .xorWFr f, .notWFr f, .decWFr f, .incWFr f, .rlWFr f, .rrWFr f, .swapWFr f,
           .mulsWFr f, .muluWFr f],
      cycles i s t = 1)

/-! ### The data stack -/

/-- push: the byte is stored at SP, then SP is one less, modulo 2^16; the operand is read with the old SP (44_data_movement.md R223, R224,
R226). Where the store at SP writes SPH or SPL, SP counts down from what was stored: the model's choice (log entry 22). -/
def Obligations.PushStoresThenDecrements : Prop :=
  ∀ (f : FileOperand) (k v : Byte) (s : State),
    let pushes (i : Instr) (r : Byte) : Prop :=
      (writeAccepts s.sp r s = true → ∃ t, writeFile s.sp r { s with pc := s.pc + 1 } = .ok t ∧
        exec i s = .next { t with
          sph := ((t.sph ++ t.spl : Word) - 1).extractLsb' 8 8, spl := ((t.sph ++ t.spl : Word) - 1).extractLsb' 0 8 }) ∧
      (writeAccepts s.sp r s = false → ∃ e, exec i s = .fault e)
    pushes (.pushLit k) k ∧ (frRead f s = .ok v → pushes (.pushFr f) v)

/-- pop: SP is one more, then the byte at SP is stored to the operand, no flag. An operand that depends on SP stops, the `offset(sp)` form
in every state; so does a byte at SP that cannot be read, with its own reason (44_data_movement.md R225, R226). -/
def Obligations.PopIncrementsThenLoads : Prop :=
  ∀ (f : FileOperand) (o : BitVec 7) (a : Word) (v : Byte) (e : Fault) (s : State),
    let sp' : Word := (s.sph ++ s.spl : Word) + 1
    let up : State := { s with sph := sp'.extractLsb' 8 8, spl := sp'.extractLsb' 0 8 }
    exec (.popFr (.spOffset o)) s = .fault .popDependsOnSp ∧
    ((∀ o, f ≠ .spOffset o) → effectiveAddress f s = .ok a →
      (a = 0x006 ∨ a = 0x007 → exec (.popFr f) s = .fault .popDependsOnSp) ∧
      (a ≠ 0x006 → a ≠ 0x007 →
        (readFile sp' up = .ok v →
          (writeAccepts a v s = true → ∃ t, writeFile a v { up with pc := s.pc + 1 } = .ok t ∧ exec (.popFr f) s = .next t) ∧
          (writeAccepts a v s = false → ∃ x, exec (.popFr f) s = .fault x)) ∧
        (readFile sp' up = .error e → exec (.popFr f) s = .fault e)))

/-- A pushed byte popped to a data address: it is there, SP is back, and every other byte but the stack slot is as before
(44_data_movement.md R224 to R226). -/
def Obligations.PushThenPop : Prop :=
  ∀ (k : Byte) (a : BitVec 8) (s : State), Memory.wf 0x00 s.data → 0x080 ≤ s.sp.toNat → s.sp.toNat ≤ 0xFFF → 0x080 ≤ a.toNat →
    ∃ t u, exec (.pushLit k) s = .next t ∧ exec (.popFr (.direct a)) t = .next u ∧
      u.sp = s.sp ∧ u.pc = s.pc + 2 ∧ memRead 0x00 u.data a.toNat = k ∧ memRead 0x00 u.data s.sp.toNat = k ∧
      ∀ b : Nat, b ≠ a.toNat → b ≠ s.sp.toNat → memRead 0x00 u.data b = memRead 0x00 s.data b

/-! ### Control flow -/

/-- jmp goes to PA2:0 || addr13 and changes nothing else; call also pushes pc + 1 on the call stack (45_program_control.md R230, R231). -/
def Obligations.JumpAndCall : Prop :=
  ∀ (k : BitVec 13) (s : State),
    exec (.jmp k) s = .next { s with pc := s.status.extractLsb' 5 3 ++ k } ∧
    (s.callStack.length < 16 →
      exec (.call k) s = .next { s with pc := s.status.extractLsb' 5 3 ++ k, callStack := (s.pc + 1) :: s.callStack })

/-- ret, retnp and retw go to the popped address; ret and retw set PA2:0 to its bits 15:13, retnp leaves STATUS, retw loads W
(45_program_control.md R234 to R236, R240). -/
def Obligations.ReturnsPopTheCallStack : Prop :=
  ∀ (k : Byte) (t : Word) (rest : List Word) (s : State), s.callStack = t :: rest →
    exec .ret s = .next { s with pc := t, callStack := rest, status := t.extractLsb' 13 3 ++ s.status.extractLsb' 0 5 } ∧
    exec .retnp s = .next { s with pc := t, callStack := rest } ∧
    exec (.retw k) s = .next { s with
      pc := t, callStack := rest, w := k, status := t.extractLsb' 13 3 ++ s.status.extractLsb' 0 5 }

/-- The 17th nested call stops, and so does a return with nothing pushed (10_state.md R34). -/
def Obligations.CallStackLimits : Prop :=
  ∀ (k : BitVec 13) (c : Byte) (s : State),
    (s.callStack.length = 16 → exec (.call k) s = .fault .callStackOverflow) ∧
    (s.callStack = [] → ∀ i ∈ [.ret, .retnp, .retw c], exec i s = .fault .callStackUnderflow)

/-! ### Interrupts and Break mode -/

/-- int with GIE = 1 and INT_EN = 0 takes an interrupt with return address pc + 1: the fourteen items saved, GIE 0, SPDREG from INTSPD,
pc at the vector; inside a routine it stops; otherwise it is no operation (45_program_control.md R232; 60_exceptions.md R283, R284,
R291). That entry clears GIE and loads SPDREG from INTSPD is PRESUMED (log entry 33), and INT_EN's polarity is the printed one (log entry 28). -/
def Obligations.SoftwareInterrupt : Prop :=
  ∀ s : State,
    (s.gie = true → s.intEn = false → s.inIsr = false →
      exec .int s = .next { s with
        shadow := { pc := s.pc + 1, w := s.w, status := s.status, mulh := s.mulh, spdreg := s.spdreg, iph := s.iph,
                    ipl := s.ipl, dph := s.dph, dpl := s.dpl, sph := s.sph, spl := s.spl, addrsel := s.addrsel,
                    datah := s.datah, datal := s.datal }
        inIsr := true, gie := false, spdreg := s.intspd, pc := s.intvech ++ s.intvecl }) ∧
    (s.gie = true → s.intEn = false → s.inIsr = true → exec .int s = .fault .nestedInterrupt) ∧
    (¬(s.gie = true ∧ s.intEn = false) → exec .int s = .next { s with pc := s.pc + 1 })

/-- A requested and enabled interrupt is taken before the next instruction, with return address pc, after the controller's move; inside
a routine the step stops (10_state.md R47; 60_exceptions.md R283, R284, R291, R292). That entry clears GIE and loads SPDREG from INTSPD is
PRESUMED (log entry 33). -/
def Obligations.HardwareInterrupt : Prop :=
  ∀ s : State, s.resetRequest = none → s.breakMode = false → s.irq = true → s.gie = true →
    let c := controllerTick s
    (s.inIsr = false →
      step s = afterCore (.next { c with
        shadow := { pc := s.pc, w := s.w, status := s.status, mulh := s.mulh, spdreg := s.spdreg, iph := s.iph,
                    ipl := s.ipl, dph := s.dph, dpl := s.dpl, sph := s.sph, spl := s.spl, addrsel := s.addrsel,
                    datah := c.datah, datal := c.datal }
        inIsr := true, gie := false, spdreg := s.intspd, pc := s.intvech ++ s.intvecl })) ∧
    (s.inIsr = true → step s = .fault .nestedInterrupt)

/-- reti restores the saved items and sets GIE; bit 2 also restores SPDREG, bit 1 stores the address after it in the vector, bit 0 adds the
routine's W to T0TMR; with no interrupt taken it stops (45_program_control.md R238; 60_exceptions.md R287 to R289). That it sets GIE is
PRESUMED (log entry 33). -/
def Obligations.ReturnFromInterrupt : Prop :=
  ∀ (n : BitVec 3) (s : State),
    (s.inIsr = true → exec (.reti n) s = .next { s with
      pc := s.shadow.pc, w := s.shadow.w, status := s.shadow.status, mulh := s.shadow.mulh
      iph := s.shadow.iph, ipl := s.shadow.ipl, dph := s.shadow.dph, dpl := s.shadow.dpl
      sph := s.shadow.sph, spl := s.shadow.spl, addrsel := s.shadow.addrsel
      datah := s.shadow.datah, datal := s.shadow.datal
      spdreg := if n.getLsbD 2 then s.shadow.spdreg else s.spdreg
      intvech := if n.getLsbD 1 then (s.pc + 1).extractLsb' 8 8 else s.intvech
      intvecl := if n.getLsbD 1 then (s.pc + 1).extractLsb' 0 8 else s.intvecl
      t0tmr := if n.getLsbD 0 then s.t0tmr + s.w else s.t0tmr
      gie := true, inIsr := false }) ∧
    (s.inIsr = false → exec (.reti n) s = .fault .retiOutsideInterrupt)

/-- A hardware interrupt whose routine is `reti #4` gives the interrupted state back whole: every item but the shadow set itself
(60_exceptions.md R283, R287, R288). That entry clears GIE and loads SPDREG, and that
reti sets GIE, is PRESUMED (log entry 33). -/
def Obligations.InterruptThenReturn : Prop :=
  ∀ s : State, s.breakMode = false → s.irq = true → s.gie = true → s.inIsr = false →
    ∃ t, coreStep s = .next t ∧ exec (.reti 4) t = .next { s with shadow := t.shadow }

/-- break and breakx enter Break mode with pc at the next word; in Break mode a step leaves every item of the core as it was: only the
controller and the environment move; a host that resumes clears Break mode alone (46_system_control.md R250, R251; 60_exceptions.md R310). -/
def Obligations.BreakModeHoldsTheCore : Prop :=
  ∀ s : State,
    exec .brk s = .next { s with pc := s.pc + 1, breakMode := true } ∧
    exec .brkx s = .next { s with pc := s.pc + 1, breakMode := true } ∧
    (s.breakMode = true → s.resetRequest = none → ∃ t, step s = .next t ∧ t = { s with
      flash := t.flash, flashOp := t.flashOp, datah := t.datah, datal := t.datal, t0tmr := t.t0tmr, t0Prescaler := t.t0Prescaler
      wdtCounter := t.wdtCounter, wdtPrescaler := t.wdtPrescaler, irq := t.irq, resetRequest := t.resetRequest, time := t.time }) ∧
    hostResume s = { s with breakMode := false }

/-! ### Flash and program memory -/

/-- ferase, fread and fwrite with FBUSY = 0, from outside flash, aligned: where the address is in flash the operation is issued and FBUSY
reads 1 (fread leaves DATA a free value); elsewhere no operation (46_system_control.md R252 to R256). Where flash lies is a parameter
(log entry 3). -/
def Obligations.FlashInstructionsIssue : Prop :=
  ∀ s : State, s.flashOp = none → ¬(s.params.flashBase.toNat ≤ s.pc.toNat ∧ s.pc.toNat ≤ s.params.flashEnd.toNat) →
    let adr : ByteAddress := s.addrx ++ s.addrh ++ s.addrl
    let block : ByteAddress := s.addrx ++ s.addrh ++ (0x00 : Byte)
    (s.addrh.getLsbD 0 = false → s.params.flashByte block →
      exec .ferase s = .next { s with pc := s.pc + 1, flashOp := issued .erase block 0 s }) ∧
    (s.addrh.getLsbD 0 = false → ¬s.params.flashByte block → exec .ferase s = .next { s with pc := s.pc + 1 }) ∧
    (s.addrl.getLsbD 0 = false → s.params.flashByte adr →
      exec .fread s = .next { s with
        pc := s.pc + 1, flashOp := issued .fread adr 0 s
        datah := (Config.pendingData s.time).extractLsb' 8 8, datal := (Config.pendingData s.time).extractLsb' 0 8 } ∧
      exec .fwrite s = .next { s with pc := s.pc + 1, flashOp := issued .fwrite adr (s.datah ++ s.datal) s }) ∧
    (s.addrl.getLsbD 0 = false → ¬s.params.flashByte adr →
      exec .fread s = .next { s with pc := s.pc + 1 } ∧ exec .fwrite s = .next { s with pc := s.pc + 1 })

/-- ferase, fread and fwrite stop while FBUSY = 1 and when fetched from flash; then an odd ADDR, or an unaligned block, stops
(46_system_control.md R253 to R256; 20_memory.md R80). -/
def Obligations.FlashInstructionGuards : Prop :=
  ∀ s : State,
    let fromFlash : Prop := s.params.flashBase.toNat ≤ s.pc.toNat ∧ s.pc.toNat ≤ s.params.flashEnd.toNat
    (s.flashOp.isSome = true → ∀ i ∈ [.ferase, .fread, .fwrite], exec i s = .fault .flashInstructionWhileBusy) ∧
    (s.flashOp = none → fromFlash → ∀ i ∈ [.ferase, .fread, .fwrite], exec i s = .fault .flashInstructionFromFlash) ∧
    (s.flashOp = none → ¬fromFlash → s.addrh.getLsbD 0 = true → exec .ferase s = .fault .eraseBlockUnaligned) ∧
    (s.flashOp = none → ¬fromFlash → s.addrl.getLsbD 0 = true →
      exec .fread s = .fault .oddAddr ∧ exec .fwrite s = .fault .oddAddr)

/-- iread and ireadi with FBUSY = 0 and an even ADDR: program RAM at once; flash at once from flash, and issued from elsewhere; external
memory issued by iread and a stop for ireadi. ireadi adds 2 to ADDRL unless that carries (46_system_control.md R257, R258; 20_memory.md R79).
Which other ADDR values are external memory is free (log entry 13). -/
def Obligations.ProgramMemoryReads : Prop :=
  ∀ s : State, s.params.wf → s.flashOp = none → s.addrl.getLsbD 0 = false →
    let adr : ByteAddress := s.addrx ++ s.addrh ++ s.addrl
    let fromFlash : Prop := s.params.flashBase.toNat ≤ s.pc.toNat ∧ s.pc.toNat ≤ s.params.flashEnd.toNat
    let issuedRead (kind : FlashKind) : State := { s with
      pc := s.pc + 1, flashOp := issued kind adr 0 s
      datah := (Config.pendingData s.time).extractLsb' 8 8, datal := (Config.pendingData s.time).extractLsb' 0 8 }
    let reads (u : State) : Prop :=
      exec .iread s = .next u ∧ (s.addrl.toNat < 0xFE → exec .ireadi s = .next { u with addrl := s.addrl + 2 })
    (s.params.ramByte adr → reads { s with
      pc := s.pc + 1, datah := memRead 0x00 s.pram adr.toNat, datal := memRead 0x00 s.pram (adr.toNat + 1) }) ∧
    (s.params.flashByte adr → fromFlash → reads { s with
      pc := s.pc + 1, datah := memRead 0xFF s.flash adr.toNat, datal := memRead 0xFF s.flash (adr.toNat + 1) }) ∧
    (s.params.flashByte adr → ¬fromFlash → reads (issuedRead .ireadFlash)) ∧
    (¬s.params.ramByte adr → ¬s.params.flashByte adr →
      exec .iread s =
        (if Config.externalWindow adr then .next (issuedRead .extRead) else .fault .unbackedProgramAddress) ∧
      exec .ireadi s = .fault .ireadiOutside)

/-- iwrite and iwritei with FBUSY = 0 and an even ADDR: a word of program RAM other than the next two takes DATA; elsewhere iwrite issues a
write of external RAM, a free part of the free window (log entry 13), or does nothing, and iwritei stops. iwritei adds 2 to ADDRL unless
that carries (46_system_control.md R259, R260; 20_memory.md R77, R79, R88). -/
def Obligations.ProgramMemoryWrites : Prop :=
  ∀ s : State, s.params.wf → s.flashOp = none → s.addrl.getLsbD 0 = false →
    let adr : ByteAddress := s.addrx ++ s.addrh ++ s.addrl
    let wa : Word := BitVec.ofNat 16 (adr.toNat / 2)
    let written : State := { s with
      pc := s.pc + 1, pram := memWrite 0x00 (memWrite 0x00 s.pram adr.toNat s.datah) (adr.toNat + 1) s.datal }
    (s.params.ramByte adr → wa ≠ s.pc + 1 → wa ≠ s.pc + 2 →
      exec .iwrite s = .next written ∧
      (s.addrl.toNat < 0xFE → exec .iwritei s = .next { written with addrl := s.addrl + 2 })) ∧
    (s.params.ramByte adr → wa = s.pc + 1 ∨ wa = s.pc + 2 →
      exec .iwrite s = .fault .writesPrefetchedWord ∧ exec .iwritei s = .fault .writesPrefetchedWord) ∧
    (s.params.flashByte adr → exec .iwrite s = .next { s with pc := s.pc + 1 }) ∧
    (¬s.params.ramByte adr → ¬s.params.flashByte adr →
      exec .iwrite s = .next (if Config.externalWindow adr && Config.externalRam adr
        then { s with pc := s.pc + 1, flashOp := issued .extWrite adr (s.datah ++ s.datal) s } else { s with pc := s.pc + 1 })) ∧
    (¬s.params.ramByte adr → exec .iwritei s = .fault .iwriteiOutside)

/-- The four program-memory access instructions stop while FBUSY = 1 (the manual's own prohibition for a read of flash), then with an
odd ADDR; ireadi and iwritei stop where ADDRL + 2 carries (46_system_control.md R253, R257 to R260; 20_memory.md R76, R80). -/
def Obligations.ProgramAccessGuards : Prop :=
  ∀ s : State,
    let adr : ByteAddress := s.addrx ++ s.addrh ++ s.addrl
    (s.flashOp.isSome = true →
      exec .iwrite s = .fault .programAccessWhileBusy ∧ exec .iwritei s = .fault .programAccessWhileBusy ∧
      ∀ i ∈ [.iread, .ireadi], exec i s = .fault
        (if s.params.flashByte adr then .flashAccessWhileBusy else .programAccessWhileBusy)) ∧
    (s.flashOp = none → s.addrl.getLsbD 0 = true →
      ∀ i ∈ [.iread, .ireadi, .iwrite, .iwritei], exec i s = .fault .oddAddr) ∧
    (s.flashOp = none → s.addrl = 0xFE → s.params.ramByte adr ∨ s.params.flashByte adr →
      exec .ireadi s = .fault .addrlCarry) ∧
    (s.flashOp = none → s.addrl = 0xFE → s.params.ramByte adr → BitVec.ofNat 16 (adr.toNat / 2) ≠ s.pc + 1 →
      BitVec.ofNat 16 (adr.toNat / 2) ≠ s.pc + 2 → exec .iwritei s = .fault .addrlCarry)

/-- A word written to program RAM by iwrite or iwritei is what a later read or fetch of that word gets; every other word reads as before
(20_memory.md R76, R77, R88). -/
def Obligations.ProgramRamWriteIsSeen : Prop :=
  ∀ s t : State, Memory.wf 0x00 s.pram →
    let adr : ByteAddress := s.addrx ++ s.addrh ++ s.addrl
    s.params.ramByte adr → ∀ i ∈ [.iwrite, .iwritei], exec i s = .next t →
      ∀ wa : Word, pmemRead t wa = if wa = BitVec.ofNat 16 (adr.toNat / 2) then .ok (s.datah ++ s.datal) else pmemRead s wa

/-- An operation whose latency has run out completes: FBUSY reads 0; an erase leaves the erased word, a parameter (log entry 8), in the 256
words of its block and every other word as it was; a write leaves its word where the word was erased, and every other word as it was; a read leaves the
flash word in DATA (46_system_control.md R252, R254 to R257). -/
def Obligations.ControllerCompletes : Prop :=
  ∀ (s : State) (op : FlashOp), Memory.wf 0xFF s.flash → s.flashOp = some op → op.wait = 0 →
    let t := controllerTick s
    let wa : Word := op.addr.extractLsb' 1 16
    t.flashOp = none ∧
    (op.kind = .erase → ∀ x : Word, t.flashWord x = if (x - wa).toNat < 256 then s.params.erasedWord else s.flashWord x) ∧
    (op.kind = .fwrite → (s.flashWord wa = s.params.erasedWord → t.flashWord wa = op.data) ∧
      ∀ x : Word, x ≠ wa → t.flashWord x = s.flashWord x) ∧
    (op.kind = .fread ∨ op.kind = .ireadFlash → t.datah ++ t.datal = s.flashWord wa ∧ t.flash = s.flash) ∧
    (op.kind = .extRead → t.datah ++ t.datal = Config.externalWord op.addr s.time ∧ t.flash = s.flash) ∧
    (op.kind = .extWrite → t = { s with flashOp := none })

/-- While an operation waits, no instruction, interrupt or Break mode replaces it: each step without a reset brings it one boundary
nearer to completion, so FBUSY clears after a finite number of steps (46_system_control.md R252, R253). -/
def Obligations.PendingOperationCountsDown : Prop :=
  ∀ (s t : State) (op : FlashOp) (n : Nat), s.resetRequest = none → s.flashOp = some op → op.wait = n + 1 →
    step s = .next t → t.flashOp = some { op with wait := n }

/-! ### Frames over all instructions -/

/-- Every byte of data memory but the one the instruction stores to reads as before, for every instruction: the address is that of the
fr destination, or SP for a push, and there is none for any other form (20_memory.md R72; 40_logical.md R130). -/
def Obligations.DataMemoryFrame : Prop :=
  ∀ (i : Instr) (s t : State), Memory.wf 0x00 s.data → exec i s = .next t →
    ∀ b : Nat, (∀ a, storeAddress i s = some a → b ≠ a.toNat) → memRead 0x00 t.data b = memRead 0x00 s.data b

/-- No instruction writes flash, and only iwrite and iwritei write program RAM (20_memory.md R77). The call stack, the shadow set, in_isr,
Break mode, the controller's slot, the watchdog, Timer 0's prescaler and the request line change only by the instructions named, XCFG, FCFG
and TCTRL but for the control bits by none, and GIE and INT_EN only by a write to their register, and GIE by int and reti (10_state.md
R34, R36, R38, R39, R43; 60_exceptions.md R282, R310). -/
def Obligations.HiddenStateFrame : Prop :=
  ∀ (i : Instr) (s t : State), exec i s = .next t →
    t.params = s.params ∧ t.flash = s.flash ∧ t.irq = s.irq ∧ t.resetRequest = s.resetRequest ∧ t.time = s.time ∧
    t.xcfg = s.xcfg ∧ t.fcfg = s.fcfg ∧ t.tctrl = s.tctrl ∧
    (i ≠ .int → (∀ n, i ≠ .reti n) → storeAddress i s ≠ some s.params.gie.address → t.gie = s.gie) ∧
    (storeAddress i s ≠ some s.params.intEn.address → t.intEn = s.intEn) ∧
    (i ∉ [.iwrite, .iwritei] → t.pram = s.pram) ∧
    (i ∉ [.ret, .retnp] → (∀ k, i ≠ .retw k) → (∀ k, i ≠ .call k) → t.callStack = s.callStack) ∧
    (i ≠ .int → t.shadow = s.shadow) ∧
    (i ≠ .int → (∀ n, i ≠ .reti n) → t.inIsr = s.inIsr) ∧
    (i ∉ [.brk, .brkx] → t.breakMode = s.breakMode) ∧
    (i ∉ [.ferase, .fread, .fwrite, .iread, .ireadi, .iwrite] → t.flashOp = s.flashOp) ∧
    (i ≠ .cwdt → t.wdtCounter = s.wdtCounter ∧ t.wdtPrescaler = s.wdtPrescaler) ∧
    ((∀ f, i ≠ .testFr f) → t.t0Prescaler = s.t0Prescaler)

/-- STATUS as a whole changes only by the instructions that write it as their own effect, or as a file register they store to; and no
instruction but reti changes WD or BO (10_state.md R25, R26). -/
def Obligations.StatusFrame : Prop :=
  ∀ (i : Instr) (s t : State), exec i s = .next t →
    (writesStatus i = false → storeAddress i s ≠ some 0x00B → t.status = s.status) ∧
    ((∀ n, i ≠ .reti n) → t.status &&& 0x18 = s.status &&& 0x18)

end Statements
end

