-- ==== Sys2Proof/Laws/State.lean ====
section
/-! SUPPORT. Each named update of the state, field by field: what it writes and what it leaves. -/

namespace Sys2Proof.Machine

/-! ### `State.advance` -/

@[simp] theorem State.advance_w (s : State) : s.advance.w = s.w := rfl
@[simp] theorem State.advance_pc (s : State) : s.advance.pc = s.pc + 1 := rfl
@[simp] theorem State.advance_status (s : State) : s.advance.status = s.status := rfl
@[simp] theorem State.advance_iph (s : State) : s.advance.iph = s.iph := rfl
@[simp] theorem State.advance_ipl (s : State) : s.advance.ipl = s.ipl := rfl
@[simp] theorem State.advance_dph (s : State) : s.advance.dph = s.dph := rfl
@[simp] theorem State.advance_dpl (s : State) : s.advance.dpl = s.dpl := rfl
@[simp] theorem State.advance_sph (s : State) : s.advance.sph = s.sph := rfl
@[simp] theorem State.advance_spl (s : State) : s.advance.spl = s.spl := rfl
@[simp] theorem State.advance_mulh (s : State) : s.advance.mulh = s.mulh := rfl
@[simp] theorem State.advance_spdreg (s : State) : s.advance.spdreg = s.spdreg := rfl
@[simp] theorem State.advance_addrx (s : State) : s.advance.addrx = s.addrx := rfl
@[simp] theorem State.advance_addrh (s : State) : s.advance.addrh = s.addrh := rfl
@[simp] theorem State.advance_addrl (s : State) : s.advance.addrl = s.addrl := rfl
@[simp] theorem State.advance_datah (s : State) : s.advance.datah = s.datah := rfl
@[simp] theorem State.advance_datal (s : State) : s.advance.datal = s.datal := rfl
@[simp] theorem State.advance_addrsel (s : State) : s.advance.addrsel = s.addrsel := rfl
@[simp] theorem State.advance_intvech (s : State) : s.advance.intvech = s.intvech := rfl
@[simp] theorem State.advance_intvecl (s : State) : s.advance.intvecl = s.intvecl := rfl
@[simp] theorem State.advance_intspd (s : State) : s.advance.intspd = s.intspd := rfl
@[simp] theorem State.advance_xcfg (s : State) : s.advance.xcfg = s.xcfg := rfl
@[simp] theorem State.advance_fcfg (s : State) : s.advance.fcfg = s.fcfg := rfl
@[simp] theorem State.advance_tctrl (s : State) : s.advance.tctrl = s.tctrl := rfl
@[simp] theorem State.advance_gie (s : State) : s.advance.gie = s.gie := rfl
@[simp] theorem State.advance_intEn (s : State) : s.advance.intEn = s.intEn := rfl
@[simp] theorem State.advance_callStack (s : State) : s.advance.callStack = s.callStack := rfl
@[simp] theorem State.advance_shadow (s : State) : s.advance.shadow = s.shadow := rfl
@[simp] theorem State.advance_inIsr (s : State) : s.advance.inIsr = s.inIsr := rfl
@[simp] theorem State.advance_irq (s : State) : s.advance.irq = s.irq := rfl
@[simp] theorem State.advance_flashOp (s : State) : s.advance.flashOp = s.flashOp := rfl
@[simp] theorem State.advance_breakMode (s : State) : s.advance.breakMode = s.breakMode := rfl
@[simp] theorem State.advance_wdtCounter (s : State) : s.advance.wdtCounter = s.wdtCounter := rfl
@[simp] theorem State.advance_wdtPrescaler (s : State) : s.advance.wdtPrescaler = s.wdtPrescaler := rfl
@[simp] theorem State.advance_t0tmr (s : State) : s.advance.t0tmr = s.t0tmr := rfl
@[simp] theorem State.advance_t0Prescaler (s : State) : s.advance.t0Prescaler = s.t0Prescaler := rfl
@[simp] theorem State.advance_resetRequest (s : State) : s.advance.resetRequest = s.resetRequest := rfl
@[simp] theorem State.advance_data (s : State) : s.advance.data = s.data := rfl
@[simp] theorem State.advance_pram (s : State) : s.advance.pram = s.pram := rfl
@[simp] theorem State.advance_flash (s : State) : s.advance.flash = s.flash := rfl
@[simp] theorem State.advance_params (s : State) : s.advance.params = s.params := rfl
@[simp] theorem State.advance_time (s : State) : s.advance.time = s.time := rfl

/-! ### `State.setSp` -/

@[simp] theorem State.setSp_w (s : State) (v : Word) : (s.setSp v).w = s.w := rfl
@[simp] theorem State.setSp_pc (s : State) (v : Word) : (s.setSp v).pc = s.pc := rfl
@[simp] theorem State.setSp_status (s : State) (v : Word) : (s.setSp v).status = s.status := rfl
@[simp] theorem State.setSp_iph (s : State) (v : Word) : (s.setSp v).iph = s.iph := rfl
@[simp] theorem State.setSp_ipl (s : State) (v : Word) : (s.setSp v).ipl = s.ipl := rfl
@[simp] theorem State.setSp_dph (s : State) (v : Word) : (s.setSp v).dph = s.dph := rfl
@[simp] theorem State.setSp_dpl (s : State) (v : Word) : (s.setSp v).dpl = s.dpl := rfl
@[simp] theorem State.setSp_sph (s : State) (v : Word) : (s.setSp v).sph = hiByte v := rfl
@[simp] theorem State.setSp_spl (s : State) (v : Word) : (s.setSp v).spl = loByte v := rfl
@[simp] theorem State.setSp_mulh (s : State) (v : Word) : (s.setSp v).mulh = s.mulh := rfl
@[simp] theorem State.setSp_spdreg (s : State) (v : Word) : (s.setSp v).spdreg = s.spdreg := rfl
@[simp] theorem State.setSp_addrx (s : State) (v : Word) : (s.setSp v).addrx = s.addrx := rfl
@[simp] theorem State.setSp_addrh (s : State) (v : Word) : (s.setSp v).addrh = s.addrh := rfl
@[simp] theorem State.setSp_addrl (s : State) (v : Word) : (s.setSp v).addrl = s.addrl := rfl
@[simp] theorem State.setSp_datah (s : State) (v : Word) : (s.setSp v).datah = s.datah := rfl
@[simp] theorem State.setSp_datal (s : State) (v : Word) : (s.setSp v).datal = s.datal := rfl
@[simp] theorem State.setSp_addrsel (s : State) (v : Word) : (s.setSp v).addrsel = s.addrsel := rfl
@[simp] theorem State.setSp_intvech (s : State) (v : Word) : (s.setSp v).intvech = s.intvech := rfl
@[simp] theorem State.setSp_intvecl (s : State) (v : Word) : (s.setSp v).intvecl = s.intvecl := rfl
@[simp] theorem State.setSp_intspd (s : State) (v : Word) : (s.setSp v).intspd = s.intspd := rfl
@[simp] theorem State.setSp_xcfg (s : State) (v : Word) : (s.setSp v).xcfg = s.xcfg := rfl
@[simp] theorem State.setSp_fcfg (s : State) (v : Word) : (s.setSp v).fcfg = s.fcfg := rfl
@[simp] theorem State.setSp_tctrl (s : State) (v : Word) : (s.setSp v).tctrl = s.tctrl := rfl
@[simp] theorem State.setSp_gie (s : State) (v : Word) : (s.setSp v).gie = s.gie := rfl
@[simp] theorem State.setSp_intEn (s : State) (v : Word) : (s.setSp v).intEn = s.intEn := rfl
@[simp] theorem State.setSp_callStack (s : State) (v : Word) : (s.setSp v).callStack = s.callStack := rfl
@[simp] theorem State.setSp_shadow (s : State) (v : Word) : (s.setSp v).shadow = s.shadow := rfl
@[simp] theorem State.setSp_inIsr (s : State) (v : Word) : (s.setSp v).inIsr = s.inIsr := rfl
@[simp] theorem State.setSp_irq (s : State) (v : Word) : (s.setSp v).irq = s.irq := rfl
@[simp] theorem State.setSp_flashOp (s : State) (v : Word) : (s.setSp v).flashOp = s.flashOp := rfl
@[simp] theorem State.setSp_breakMode (s : State) (v : Word) : (s.setSp v).breakMode = s.breakMode := rfl
@[simp] theorem State.setSp_wdtCounter (s : State) (v : Word) : (s.setSp v).wdtCounter = s.wdtCounter := rfl
@[simp] theorem State.setSp_wdtPrescaler (s : State) (v : Word) : (s.setSp v).wdtPrescaler = s.wdtPrescaler := rfl
@[simp] theorem State.setSp_t0tmr (s : State) (v : Word) : (s.setSp v).t0tmr = s.t0tmr := rfl
@[simp] theorem State.setSp_t0Prescaler (s : State) (v : Word) : (s.setSp v).t0Prescaler = s.t0Prescaler := rfl
@[simp] theorem State.setSp_resetRequest (s : State) (v : Word) : (s.setSp v).resetRequest = s.resetRequest := rfl
@[simp] theorem State.setSp_data (s : State) (v : Word) : (s.setSp v).data = s.data := rfl
@[simp] theorem State.setSp_pram (s : State) (v : Word) : (s.setSp v).pram = s.pram := rfl
@[simp] theorem State.setSp_flash (s : State) (v : Word) : (s.setSp v).flash = s.flash := rfl
@[simp] theorem State.setSp_params (s : State) (v : Word) : (s.setSp v).params = s.params := rfl
@[simp] theorem State.setSp_time (s : State) (v : Word) : (s.setSp v).time = s.time := rfl

/-! ### `State.setData` -/

@[simp] theorem State.setData_w (s : State) (v : Word) : (s.setData v).w = s.w := rfl
@[simp] theorem State.setData_pc (s : State) (v : Word) : (s.setData v).pc = s.pc := rfl
@[simp] theorem State.setData_status (s : State) (v : Word) : (s.setData v).status = s.status := rfl
@[simp] theorem State.setData_iph (s : State) (v : Word) : (s.setData v).iph = s.iph := rfl
@[simp] theorem State.setData_ipl (s : State) (v : Word) : (s.setData v).ipl = s.ipl := rfl
@[simp] theorem State.setData_dph (s : State) (v : Word) : (s.setData v).dph = s.dph := rfl
@[simp] theorem State.setData_dpl (s : State) (v : Word) : (s.setData v).dpl = s.dpl := rfl
@[simp] theorem State.setData_sph (s : State) (v : Word) : (s.setData v).sph = s.sph := rfl
@[simp] theorem State.setData_spl (s : State) (v : Word) : (s.setData v).spl = s.spl := rfl
@[simp] theorem State.setData_mulh (s : State) (v : Word) : (s.setData v).mulh = s.mulh := rfl
@[simp] theorem State.setData_spdreg (s : State) (v : Word) : (s.setData v).spdreg = s.spdreg := rfl
@[simp] theorem State.setData_addrx (s : State) (v : Word) : (s.setData v).addrx = s.addrx := rfl
@[simp] theorem State.setData_addrh (s : State) (v : Word) : (s.setData v).addrh = s.addrh := rfl
@[simp] theorem State.setData_addrl (s : State) (v : Word) : (s.setData v).addrl = s.addrl := rfl
@[simp] theorem State.setData_datah (s : State) (v : Word) : (s.setData v).datah = hiByte v := rfl
@[simp] theorem State.setData_datal (s : State) (v : Word) : (s.setData v).datal = loByte v := rfl
@[simp] theorem State.setData_addrsel (s : State) (v : Word) : (s.setData v).addrsel = s.addrsel := rfl
@[simp] theorem State.setData_intvech (s : State) (v : Word) : (s.setData v).intvech = s.intvech := rfl
@[simp] theorem State.setData_intvecl (s : State) (v : Word) : (s.setData v).intvecl = s.intvecl := rfl
@[simp] theorem State.setData_intspd (s : State) (v : Word) : (s.setData v).intspd = s.intspd := rfl
@[simp] theorem State.setData_xcfg (s : State) (v : Word) : (s.setData v).xcfg = s.xcfg := rfl
@[simp] theorem State.setData_fcfg (s : State) (v : Word) : (s.setData v).fcfg = s.fcfg := rfl
@[simp] theorem State.setData_tctrl (s : State) (v : Word) : (s.setData v).tctrl = s.tctrl := rfl
@[simp] theorem State.setData_gie (s : State) (v : Word) : (s.setData v).gie = s.gie := rfl
@[simp] theorem State.setData_intEn (s : State) (v : Word) : (s.setData v).intEn = s.intEn := rfl
@[simp] theorem State.setData_callStack (s : State) (v : Word) : (s.setData v).callStack = s.callStack := rfl
@[simp] theorem State.setData_shadow (s : State) (v : Word) : (s.setData v).shadow = s.shadow := rfl
@[simp] theorem State.setData_inIsr (s : State) (v : Word) : (s.setData v).inIsr = s.inIsr := rfl
@[simp] theorem State.setData_irq (s : State) (v : Word) : (s.setData v).irq = s.irq := rfl
@[simp] theorem State.setData_flashOp (s : State) (v : Word) : (s.setData v).flashOp = s.flashOp := rfl
@[simp] theorem State.setData_breakMode (s : State) (v : Word) : (s.setData v).breakMode = s.breakMode := rfl
@[simp] theorem State.setData_wdtCounter (s : State) (v : Word) : (s.setData v).wdtCounter = s.wdtCounter := rfl
@[simp] theorem State.setData_wdtPrescaler (s : State) (v : Word) : (s.setData v).wdtPrescaler = s.wdtPrescaler := rfl
@[simp] theorem State.setData_t0tmr (s : State) (v : Word) : (s.setData v).t0tmr = s.t0tmr := rfl
@[simp] theorem State.setData_t0Prescaler (s : State) (v : Word) : (s.setData v).t0Prescaler = s.t0Prescaler := rfl
@[simp] theorem State.setData_resetRequest (s : State) (v : Word) : (s.setData v).resetRequest = s.resetRequest := rfl
@[simp] theorem State.setData_data (s : State) (v : Word) : (s.setData v).data = s.data := rfl
@[simp] theorem State.setData_pram (s : State) (v : Word) : (s.setData v).pram = s.pram := rfl
@[simp] theorem State.setData_flash (s : State) (v : Word) : (s.setData v).flash = s.flash := rfl
@[simp] theorem State.setData_params (s : State) (v : Word) : (s.setData v).params = s.params := rfl
@[simp] theorem State.setData_time (s : State) (v : Word) : (s.setData v).time = s.time := rfl

/-! ### `State.setProduct` -/

@[simp] theorem State.setProduct_w (s : State) (v : Word) : (s.setProduct v).w = loByte v := rfl
@[simp] theorem State.setProduct_pc (s : State) (v : Word) : (s.setProduct v).pc = s.pc := rfl
@[simp] theorem State.setProduct_status (s : State) (v : Word) : (s.setProduct v).status = s.status := rfl
@[simp] theorem State.setProduct_iph (s : State) (v : Word) : (s.setProduct v).iph = s.iph := rfl
@[simp] theorem State.setProduct_ipl (s : State) (v : Word) : (s.setProduct v).ipl = s.ipl := rfl
@[simp] theorem State.setProduct_dph (s : State) (v : Word) : (s.setProduct v).dph = s.dph := rfl
@[simp] theorem State.setProduct_dpl (s : State) (v : Word) : (s.setProduct v).dpl = s.dpl := rfl
@[simp] theorem State.setProduct_sph (s : State) (v : Word) : (s.setProduct v).sph = s.sph := rfl
@[simp] theorem State.setProduct_spl (s : State) (v : Word) : (s.setProduct v).spl = s.spl := rfl
@[simp] theorem State.setProduct_mulh (s : State) (v : Word) : (s.setProduct v).mulh = hiByte v := rfl
@[simp] theorem State.setProduct_spdreg (s : State) (v : Word) : (s.setProduct v).spdreg = s.spdreg := rfl
@[simp] theorem State.setProduct_addrx (s : State) (v : Word) : (s.setProduct v).addrx = s.addrx := rfl
@[simp] theorem State.setProduct_addrh (s : State) (v : Word) : (s.setProduct v).addrh = s.addrh := rfl
@[simp] theorem State.setProduct_addrl (s : State) (v : Word) : (s.setProduct v).addrl = s.addrl := rfl
@[simp] theorem State.setProduct_datah (s : State) (v : Word) : (s.setProduct v).datah = s.datah := rfl
@[simp] theorem State.setProduct_datal (s : State) (v : Word) : (s.setProduct v).datal = s.datal := rfl
@[simp] theorem State.setProduct_addrsel (s : State) (v : Word) : (s.setProduct v).addrsel = s.addrsel := rfl
@[simp] theorem State.setProduct_intvech (s : State) (v : Word) : (s.setProduct v).intvech = s.intvech := rfl
@[simp] theorem State.setProduct_intvecl (s : State) (v : Word) : (s.setProduct v).intvecl = s.intvecl := rfl
@[simp] theorem State.setProduct_intspd (s : State) (v : Word) : (s.setProduct v).intspd = s.intspd := rfl
@[simp] theorem State.setProduct_xcfg (s : State) (v : Word) : (s.setProduct v).xcfg = s.xcfg := rfl
@[simp] theorem State.setProduct_fcfg (s : State) (v : Word) : (s.setProduct v).fcfg = s.fcfg := rfl
@[simp] theorem State.setProduct_tctrl (s : State) (v : Word) : (s.setProduct v).tctrl = s.tctrl := rfl
@[simp] theorem State.setProduct_gie (s : State) (v : Word) : (s.setProduct v).gie = s.gie := rfl
@[simp] theorem State.setProduct_intEn (s : State) (v : Word) : (s.setProduct v).intEn = s.intEn := rfl
@[simp] theorem State.setProduct_callStack (s : State) (v : Word) : (s.setProduct v).callStack = s.callStack := rfl
@[simp] theorem State.setProduct_shadow (s : State) (v : Word) : (s.setProduct v).shadow = s.shadow := rfl
@[simp] theorem State.setProduct_inIsr (s : State) (v : Word) : (s.setProduct v).inIsr = s.inIsr := rfl
@[simp] theorem State.setProduct_irq (s : State) (v : Word) : (s.setProduct v).irq = s.irq := rfl
@[simp] theorem State.setProduct_flashOp (s : State) (v : Word) : (s.setProduct v).flashOp = s.flashOp := rfl
@[simp] theorem State.setProduct_breakMode (s : State) (v : Word) : (s.setProduct v).breakMode = s.breakMode := rfl
@[simp] theorem State.setProduct_wdtCounter (s : State) (v : Word) : (s.setProduct v).wdtCounter = s.wdtCounter := rfl
@[simp] theorem State.setProduct_wdtPrescaler (s : State) (v : Word) : (s.setProduct v).wdtPrescaler = s.wdtPrescaler := rfl
@[simp] theorem State.setProduct_t0tmr (s : State) (v : Word) : (s.setProduct v).t0tmr = s.t0tmr := rfl
@[simp] theorem State.setProduct_t0Prescaler (s : State) (v : Word) : (s.setProduct v).t0Prescaler = s.t0Prescaler := rfl
@[simp] theorem State.setProduct_resetRequest (s : State) (v : Word) : (s.setProduct v).resetRequest = s.resetRequest := rfl
@[simp] theorem State.setProduct_data (s : State) (v : Word) : (s.setProduct v).data = s.data := rfl
@[simp] theorem State.setProduct_pram (s : State) (v : Word) : (s.setProduct v).pram = s.pram := rfl
@[simp] theorem State.setProduct_flash (s : State) (v : Word) : (s.setProduct v).flash = s.flash := rfl
@[simp] theorem State.setProduct_params (s : State) (v : Word) : (s.setProduct v).params = s.params := rfl
@[simp] theorem State.setProduct_time (s : State) (v : Word) : (s.setProduct v).time = s.time := rfl

/-! ### `State.setIntvec` -/

@[simp] theorem State.setIntvec_w (s : State) (v : Word) : (s.setIntvec v).w = s.w := rfl
@[simp] theorem State.setIntvec_pc (s : State) (v : Word) : (s.setIntvec v).pc = s.pc := rfl
@[simp] theorem State.setIntvec_status (s : State) (v : Word) : (s.setIntvec v).status = s.status := rfl
@[simp] theorem State.setIntvec_iph (s : State) (v : Word) : (s.setIntvec v).iph = s.iph := rfl
@[simp] theorem State.setIntvec_ipl (s : State) (v : Word) : (s.setIntvec v).ipl = s.ipl := rfl
@[simp] theorem State.setIntvec_dph (s : State) (v : Word) : (s.setIntvec v).dph = s.dph := rfl
@[simp] theorem State.setIntvec_dpl (s : State) (v : Word) : (s.setIntvec v).dpl = s.dpl := rfl
@[simp] theorem State.setIntvec_sph (s : State) (v : Word) : (s.setIntvec v).sph = s.sph := rfl
@[simp] theorem State.setIntvec_spl (s : State) (v : Word) : (s.setIntvec v).spl = s.spl := rfl
@[simp] theorem State.setIntvec_mulh (s : State) (v : Word) : (s.setIntvec v).mulh = s.mulh := rfl
@[simp] theorem State.setIntvec_spdreg (s : State) (v : Word) : (s.setIntvec v).spdreg = s.spdreg := rfl
@[simp] theorem State.setIntvec_addrx (s : State) (v : Word) : (s.setIntvec v).addrx = s.addrx := rfl
@[simp] theorem State.setIntvec_addrh (s : State) (v : Word) : (s.setIntvec v).addrh = s.addrh := rfl
@[simp] theorem State.setIntvec_addrl (s : State) (v : Word) : (s.setIntvec v).addrl = s.addrl := rfl
@[simp] theorem State.setIntvec_datah (s : State) (v : Word) : (s.setIntvec v).datah = s.datah := rfl
@[simp] theorem State.setIntvec_datal (s : State) (v : Word) : (s.setIntvec v).datal = s.datal := rfl
@[simp] theorem State.setIntvec_addrsel (s : State) (v : Word) : (s.setIntvec v).addrsel = s.addrsel := rfl
@[simp] theorem State.setIntvec_intvech (s : State) (v : Word) : (s.setIntvec v).intvech = hiByte v := rfl
@[simp] theorem State.setIntvec_intvecl (s : State) (v : Word) : (s.setIntvec v).intvecl = loByte v := rfl
@[simp] theorem State.setIntvec_intspd (s : State) (v : Word) : (s.setIntvec v).intspd = s.intspd := rfl
@[simp] theorem State.setIntvec_xcfg (s : State) (v : Word) : (s.setIntvec v).xcfg = s.xcfg := rfl
@[simp] theorem State.setIntvec_fcfg (s : State) (v : Word) : (s.setIntvec v).fcfg = s.fcfg := rfl
@[simp] theorem State.setIntvec_tctrl (s : State) (v : Word) : (s.setIntvec v).tctrl = s.tctrl := rfl
@[simp] theorem State.setIntvec_gie (s : State) (v : Word) : (s.setIntvec v).gie = s.gie := rfl
@[simp] theorem State.setIntvec_intEn (s : State) (v : Word) : (s.setIntvec v).intEn = s.intEn := rfl
@[simp] theorem State.setIntvec_callStack (s : State) (v : Word) : (s.setIntvec v).callStack = s.callStack := rfl
@[simp] theorem State.setIntvec_shadow (s : State) (v : Word) : (s.setIntvec v).shadow = s.shadow := rfl
@[simp] theorem State.setIntvec_inIsr (s : State) (v : Word) : (s.setIntvec v).inIsr = s.inIsr := rfl
@[simp] theorem State.setIntvec_irq (s : State) (v : Word) : (s.setIntvec v).irq = s.irq := rfl
@[simp] theorem State.setIntvec_flashOp (s : State) (v : Word) : (s.setIntvec v).flashOp = s.flashOp := rfl
@[simp] theorem State.setIntvec_breakMode (s : State) (v : Word) : (s.setIntvec v).breakMode = s.breakMode := rfl
@[simp] theorem State.setIntvec_wdtCounter (s : State) (v : Word) : (s.setIntvec v).wdtCounter = s.wdtCounter := rfl
@[simp] theorem State.setIntvec_wdtPrescaler (s : State) (v : Word) : (s.setIntvec v).wdtPrescaler = s.wdtPrescaler := rfl
@[simp] theorem State.setIntvec_t0tmr (s : State) (v : Word) : (s.setIntvec v).t0tmr = s.t0tmr := rfl
@[simp] theorem State.setIntvec_t0Prescaler (s : State) (v : Word) : (s.setIntvec v).t0Prescaler = s.t0Prescaler := rfl
@[simp] theorem State.setIntvec_resetRequest (s : State) (v : Word) : (s.setIntvec v).resetRequest = s.resetRequest := rfl
@[simp] theorem State.setIntvec_data (s : State) (v : Word) : (s.setIntvec v).data = s.data := rfl
@[simp] theorem State.setIntvec_pram (s : State) (v : Word) : (s.setIntvec v).pram = s.pram := rfl
@[simp] theorem State.setIntvec_flash (s : State) (v : Word) : (s.setIntvec v).flash = s.flash := rfl
@[simp] theorem State.setIntvec_params (s : State) (v : Word) : (s.setIntvec v).params = s.params := rfl
@[simp] theorem State.setIntvec_time (s : State) (v : Word) : (s.setIntvec v).time = s.time := rfl

/-! ### `State.setPage` -/

@[simp] theorem State.setPage_w (s : State) (p : BitVec 3) : (s.setPage p).w = s.w := rfl
@[simp] theorem State.setPage_pc (s : State) (p : BitVec 3) : (s.setPage p).pc = s.pc := rfl
@[simp] theorem State.setPage_status (s : State) (p : BitVec 3) : (s.setPage p).status = withPage s.status p := rfl
@[simp] theorem State.setPage_iph (s : State) (p : BitVec 3) : (s.setPage p).iph = s.iph := rfl
@[simp] theorem State.setPage_ipl (s : State) (p : BitVec 3) : (s.setPage p).ipl = s.ipl := rfl
@[simp] theorem State.setPage_dph (s : State) (p : BitVec 3) : (s.setPage p).dph = s.dph := rfl
@[simp] theorem State.setPage_dpl (s : State) (p : BitVec 3) : (s.setPage p).dpl = s.dpl := rfl
@[simp] theorem State.setPage_sph (s : State) (p : BitVec 3) : (s.setPage p).sph = s.sph := rfl
@[simp] theorem State.setPage_spl (s : State) (p : BitVec 3) : (s.setPage p).spl = s.spl := rfl
@[simp] theorem State.setPage_mulh (s : State) (p : BitVec 3) : (s.setPage p).mulh = s.mulh := rfl
@[simp] theorem State.setPage_spdreg (s : State) (p : BitVec 3) : (s.setPage p).spdreg = s.spdreg := rfl
@[simp] theorem State.setPage_addrx (s : State) (p : BitVec 3) : (s.setPage p).addrx = s.addrx := rfl
@[simp] theorem State.setPage_addrh (s : State) (p : BitVec 3) : (s.setPage p).addrh = s.addrh := rfl
@[simp] theorem State.setPage_addrl (s : State) (p : BitVec 3) : (s.setPage p).addrl = s.addrl := rfl
@[simp] theorem State.setPage_datah (s : State) (p : BitVec 3) : (s.setPage p).datah = s.datah := rfl
@[simp] theorem State.setPage_datal (s : State) (p : BitVec 3) : (s.setPage p).datal = s.datal := rfl
@[simp] theorem State.setPage_addrsel (s : State) (p : BitVec 3) : (s.setPage p).addrsel = s.addrsel := rfl
@[simp] theorem State.setPage_intvech (s : State) (p : BitVec 3) : (s.setPage p).intvech = s.intvech := rfl
@[simp] theorem State.setPage_intvecl (s : State) (p : BitVec 3) : (s.setPage p).intvecl = s.intvecl := rfl
@[simp] theorem State.setPage_intspd (s : State) (p : BitVec 3) : (s.setPage p).intspd = s.intspd := rfl
@[simp] theorem State.setPage_xcfg (s : State) (p : BitVec 3) : (s.setPage p).xcfg = s.xcfg := rfl
@[simp] theorem State.setPage_fcfg (s : State) (p : BitVec 3) : (s.setPage p).fcfg = s.fcfg := rfl
@[simp] theorem State.setPage_tctrl (s : State) (p : BitVec 3) : (s.setPage p).tctrl = s.tctrl := rfl
@[simp] theorem State.setPage_gie (s : State) (p : BitVec 3) : (s.setPage p).gie = s.gie := rfl
@[simp] theorem State.setPage_intEn (s : State) (p : BitVec 3) : (s.setPage p).intEn = s.intEn := rfl
@[simp] theorem State.setPage_callStack (s : State) (p : BitVec 3) : (s.setPage p).callStack = s.callStack := rfl
@[simp] theorem State.setPage_shadow (s : State) (p : BitVec 3) : (s.setPage p).shadow = s.shadow := rfl
@[simp] theorem State.setPage_inIsr (s : State) (p : BitVec 3) : (s.setPage p).inIsr = s.inIsr := rfl
@[simp] theorem State.setPage_irq (s : State) (p : BitVec 3) : (s.setPage p).irq = s.irq := rfl
@[simp] theorem State.setPage_flashOp (s : State) (p : BitVec 3) : (s.setPage p).flashOp = s.flashOp := rfl
@[simp] theorem State.setPage_breakMode (s : State) (p : BitVec 3) : (s.setPage p).breakMode = s.breakMode := rfl
@[simp] theorem State.setPage_wdtCounter (s : State) (p : BitVec 3) : (s.setPage p).wdtCounter = s.wdtCounter := rfl
@[simp] theorem State.setPage_wdtPrescaler (s : State) (p : BitVec 3) : (s.setPage p).wdtPrescaler = s.wdtPrescaler := rfl
@[simp] theorem State.setPage_t0tmr (s : State) (p : BitVec 3) : (s.setPage p).t0tmr = s.t0tmr := rfl
@[simp] theorem State.setPage_t0Prescaler (s : State) (p : BitVec 3) : (s.setPage p).t0Prescaler = s.t0Prescaler := rfl
@[simp] theorem State.setPage_resetRequest (s : State) (p : BitVec 3) : (s.setPage p).resetRequest = s.resetRequest := rfl
@[simp] theorem State.setPage_data (s : State) (p : BitVec 3) : (s.setPage p).data = s.data := rfl
@[simp] theorem State.setPage_pram (s : State) (p : BitVec 3) : (s.setPage p).pram = s.pram := rfl
@[simp] theorem State.setPage_flash (s : State) (p : BitVec 3) : (s.setPage p).flash = s.flash := rfl
@[simp] theorem State.setPage_params (s : State) (p : BitVec 3) : (s.setPage p).params = s.params := rfl
@[simp] theorem State.setPage_time (s : State) (p : BitVec 3) : (s.setPage p).time = s.time := rfl

/-! ### `State.setFlags` -/

@[simp] theorem State.setFlags_w (s : State) (r : AluResult) : (s.setFlags r).w = s.w := rfl
@[simp] theorem State.setFlags_pc (s : State) (r : AluResult) : (s.setFlags r).pc = s.pc := rfl
@[simp] theorem State.setFlags_status (s : State) (r : AluResult) : (s.setFlags r).status = r.statusAfter s.status := rfl
@[simp] theorem State.setFlags_iph (s : State) (r : AluResult) : (s.setFlags r).iph = s.iph := rfl
@[simp] theorem State.setFlags_ipl (s : State) (r : AluResult) : (s.setFlags r).ipl = s.ipl := rfl
@[simp] theorem State.setFlags_dph (s : State) (r : AluResult) : (s.setFlags r).dph = s.dph := rfl
@[simp] theorem State.setFlags_dpl (s : State) (r : AluResult) : (s.setFlags r).dpl = s.dpl := rfl
@[simp] theorem State.setFlags_sph (s : State) (r : AluResult) : (s.setFlags r).sph = s.sph := rfl
@[simp] theorem State.setFlags_spl (s : State) (r : AluResult) : (s.setFlags r).spl = s.spl := rfl
@[simp] theorem State.setFlags_mulh (s : State) (r : AluResult) : (s.setFlags r).mulh = s.mulh := rfl
@[simp] theorem State.setFlags_spdreg (s : State) (r : AluResult) : (s.setFlags r).spdreg = s.spdreg := rfl
@[simp] theorem State.setFlags_addrx (s : State) (r : AluResult) : (s.setFlags r).addrx = s.addrx := rfl
@[simp] theorem State.setFlags_addrh (s : State) (r : AluResult) : (s.setFlags r).addrh = s.addrh := rfl
@[simp] theorem State.setFlags_addrl (s : State) (r : AluResult) : (s.setFlags r).addrl = s.addrl := rfl
@[simp] theorem State.setFlags_datah (s : State) (r : AluResult) : (s.setFlags r).datah = s.datah := rfl
@[simp] theorem State.setFlags_datal (s : State) (r : AluResult) : (s.setFlags r).datal = s.datal := rfl
@[simp] theorem State.setFlags_addrsel (s : State) (r : AluResult) : (s.setFlags r).addrsel = s.addrsel := rfl
@[simp] theorem State.setFlags_intvech (s : State) (r : AluResult) : (s.setFlags r).intvech = s.intvech := rfl
@[simp] theorem State.setFlags_intvecl (s : State) (r : AluResult) : (s.setFlags r).intvecl = s.intvecl := rfl
@[simp] theorem State.setFlags_intspd (s : State) (r : AluResult) : (s.setFlags r).intspd = s.intspd := rfl
@[simp] theorem State.setFlags_xcfg (s : State) (r : AluResult) : (s.setFlags r).xcfg = s.xcfg := rfl
@[simp] theorem State.setFlags_fcfg (s : State) (r : AluResult) : (s.setFlags r).fcfg = s.fcfg := rfl
@[simp] theorem State.setFlags_tctrl (s : State) (r : AluResult) : (s.setFlags r).tctrl = s.tctrl := rfl
@[simp] theorem State.setFlags_gie (s : State) (r : AluResult) : (s.setFlags r).gie = s.gie := rfl
@[simp] theorem State.setFlags_intEn (s : State) (r : AluResult) : (s.setFlags r).intEn = s.intEn := rfl
@[simp] theorem State.setFlags_callStack (s : State) (r : AluResult) : (s.setFlags r).callStack = s.callStack := rfl
@[simp] theorem State.setFlags_shadow (s : State) (r : AluResult) : (s.setFlags r).shadow = s.shadow := rfl
@[simp] theorem State.setFlags_inIsr (s : State) (r : AluResult) : (s.setFlags r).inIsr = s.inIsr := rfl
@[simp] theorem State.setFlags_irq (s : State) (r : AluResult) : (s.setFlags r).irq = s.irq := rfl
@[simp] theorem State.setFlags_flashOp (s : State) (r : AluResult) : (s.setFlags r).flashOp = s.flashOp := rfl
@[simp] theorem State.setFlags_breakMode (s : State) (r : AluResult) : (s.setFlags r).breakMode = s.breakMode := rfl
@[simp] theorem State.setFlags_wdtCounter (s : State) (r : AluResult) : (s.setFlags r).wdtCounter = s.wdtCounter := rfl
@[simp] theorem State.setFlags_wdtPrescaler (s : State) (r : AluResult) : (s.setFlags r).wdtPrescaler = s.wdtPrescaler := rfl
@[simp] theorem State.setFlags_t0tmr (s : State) (r : AluResult) : (s.setFlags r).t0tmr = s.t0tmr := rfl
@[simp] theorem State.setFlags_t0Prescaler (s : State) (r : AluResult) : (s.setFlags r).t0Prescaler = s.t0Prescaler := rfl
@[simp] theorem State.setFlags_resetRequest (s : State) (r : AluResult) : (s.setFlags r).resetRequest = s.resetRequest := rfl
@[simp] theorem State.setFlags_data (s : State) (r : AluResult) : (s.setFlags r).data = s.data := rfl
@[simp] theorem State.setFlags_pram (s : State) (r : AluResult) : (s.setFlags r).pram = s.pram := rfl
@[simp] theorem State.setFlags_flash (s : State) (r : AluResult) : (s.setFlags r).flash = s.flash := rfl
@[simp] theorem State.setFlags_params (s : State) (r : AluResult) : (s.setFlags r).params = s.params := rfl
@[simp] theorem State.setFlags_time (s : State) (r : AluResult) : (s.setFlags r).time = s.time := rfl

/-! ### `State.takeControlBits` -/

@[simp] theorem State.takeControlBits_w (s : State) (a : Word) (v : Byte) : (s.takeControlBits a v).w = s.w := rfl
@[simp] theorem State.takeControlBits_pc (s : State) (a : Word) (v : Byte) : (s.takeControlBits a v).pc = s.pc := rfl
@[simp] theorem State.takeControlBits_status (s : State) (a : Word) (v : Byte) : (s.takeControlBits a v).status = s.status := rfl
@[simp] theorem State.takeControlBits_iph (s : State) (a : Word) (v : Byte) : (s.takeControlBits a v).iph = s.iph := rfl
@[simp] theorem State.takeControlBits_ipl (s : State) (a : Word) (v : Byte) : (s.takeControlBits a v).ipl = s.ipl := rfl
@[simp] theorem State.takeControlBits_dph (s : State) (a : Word) (v : Byte) : (s.takeControlBits a v).dph = s.dph := rfl
@[simp] theorem State.takeControlBits_dpl (s : State) (a : Word) (v : Byte) : (s.takeControlBits a v).dpl = s.dpl := rfl
@[simp] theorem State.takeControlBits_sph (s : State) (a : Word) (v : Byte) : (s.takeControlBits a v).sph = s.sph := rfl
@[simp] theorem State.takeControlBits_spl (s : State) (a : Word) (v : Byte) : (s.takeControlBits a v).spl = s.spl := rfl
@[simp] theorem State.takeControlBits_mulh (s : State) (a : Word) (v : Byte) : (s.takeControlBits a v).mulh = s.mulh := rfl
@[simp] theorem State.takeControlBits_spdreg (s : State) (a : Word) (v : Byte) : (s.takeControlBits a v).spdreg = s.spdreg := rfl
@[simp] theorem State.takeControlBits_addrx (s : State) (a : Word) (v : Byte) : (s.takeControlBits a v).addrx = s.addrx := rfl
@[simp] theorem State.takeControlBits_addrh (s : State) (a : Word) (v : Byte) : (s.takeControlBits a v).addrh = s.addrh := rfl
@[simp] theorem State.takeControlBits_addrl (s : State) (a : Word) (v : Byte) : (s.takeControlBits a v).addrl = s.addrl := rfl
@[simp] theorem State.takeControlBits_datah (s : State) (a : Word) (v : Byte) : (s.takeControlBits a v).datah = s.datah := rfl
@[simp] theorem State.takeControlBits_datal (s : State) (a : Word) (v : Byte) : (s.takeControlBits a v).datal = s.datal := rfl
@[simp] theorem State.takeControlBits_addrsel (s : State) (a : Word) (v : Byte) : (s.takeControlBits a v).addrsel = s.addrsel := rfl
@[simp] theorem State.takeControlBits_intvech (s : State) (a : Word) (v : Byte) : (s.takeControlBits a v).intvech = s.intvech := rfl
@[simp] theorem State.takeControlBits_intvecl (s : State) (a : Word) (v : Byte) : (s.takeControlBits a v).intvecl = s.intvecl := rfl
@[simp] theorem State.takeControlBits_intspd (s : State) (a : Word) (v : Byte) : (s.takeControlBits a v).intspd = s.intspd := rfl
@[simp] theorem State.takeControlBits_xcfg (s : State) (a : Word) (v : Byte) : (s.takeControlBits a v).xcfg = s.xcfg := rfl
@[simp] theorem State.takeControlBits_fcfg (s : State) (a : Word) (v : Byte) : (s.takeControlBits a v).fcfg = s.fcfg := rfl
@[simp] theorem State.takeControlBits_tctrl (s : State) (a : Word) (v : Byte) : (s.takeControlBits a v).tctrl = s.tctrl := rfl
@[simp] theorem State.takeControlBits_gie (s : State) (a : Word) (v : Byte) : (s.takeControlBits a v).gie = s.params.gie.take a v s.gie := rfl
@[simp] theorem State.takeControlBits_intEn (s : State) (a : Word) (v : Byte) : (s.takeControlBits a v).intEn = s.params.intEn.take a v s.intEn := rfl
@[simp] theorem State.takeControlBits_callStack (s : State) (a : Word) (v : Byte) : (s.takeControlBits a v).callStack = s.callStack := rfl
@[simp] theorem State.takeControlBits_shadow (s : State) (a : Word) (v : Byte) : (s.takeControlBits a v).shadow = s.shadow := rfl
@[simp] theorem State.takeControlBits_inIsr (s : State) (a : Word) (v : Byte) : (s.takeControlBits a v).inIsr = s.inIsr := rfl
@[simp] theorem State.takeControlBits_irq (s : State) (a : Word) (v : Byte) : (s.takeControlBits a v).irq = s.irq := rfl
@[simp] theorem State.takeControlBits_flashOp (s : State) (a : Word) (v : Byte) : (s.takeControlBits a v).flashOp = s.flashOp := rfl
@[simp] theorem State.takeControlBits_breakMode (s : State) (a : Word) (v : Byte) : (s.takeControlBits a v).breakMode = s.breakMode := rfl
@[simp] theorem State.takeControlBits_wdtCounter (s : State) (a : Word) (v : Byte) : (s.takeControlBits a v).wdtCounter = s.wdtCounter := rfl
@[simp] theorem State.takeControlBits_wdtPrescaler (s : State) (a : Word) (v : Byte) : (s.takeControlBits a v).wdtPrescaler = s.wdtPrescaler := rfl
@[simp] theorem State.takeControlBits_t0tmr (s : State) (a : Word) (v : Byte) : (s.takeControlBits a v).t0tmr = s.t0tmr := rfl
@[simp] theorem State.takeControlBits_t0Prescaler (s : State) (a : Word) (v : Byte) : (s.takeControlBits a v).t0Prescaler = s.t0Prescaler := rfl
@[simp] theorem State.takeControlBits_resetRequest (s : State) (a : Word) (v : Byte) : (s.takeControlBits a v).resetRequest = s.resetRequest := rfl
@[simp] theorem State.takeControlBits_data (s : State) (a : Word) (v : Byte) : (s.takeControlBits a v).data = s.data := rfl
@[simp] theorem State.takeControlBits_pram (s : State) (a : Word) (v : Byte) : (s.takeControlBits a v).pram = s.pram := rfl
@[simp] theorem State.takeControlBits_flash (s : State) (a : Word) (v : Byte) : (s.takeControlBits a v).flash = s.flash := rfl
@[simp] theorem State.takeControlBits_params (s : State) (a : Word) (v : Byte) : (s.takeControlBits a v).params = s.params := rfl
@[simp] theorem State.takeControlBits_time (s : State) (a : Word) (v : Byte) : (s.takeControlBits a v).time = s.time := rfl

end Sys2Proof.Machine
end

