-- ==== Sys2Proof/Laws/Flags.lean ====
section
/-! SUPPORT. The flags of a result as fields of STATUS: each kind of result writes its own flags and keeps the other bits. -/

namespace Sys2Proof.Machine

/-- A Z-only result writes Z. -/
theorem statusAfter_zeroFlag (v st : Byte) : (zeroFlag v).statusAfter st = withZero st (decide (v = 0)) := by
  have h : ∀ (st : Byte) (b : Bool), setBit st 2 b = withZero st b := by decide
  have e : (v == 0) = decide (v = 0) := rfl
  simp only [zeroFlag, AluResult.statusAfter, setFlag, h, e]

/-- A C-only result writes C. -/
theorem statusAfter_carryFlag (v st : Byte) (c : Bool) : (carryFlag v c).statusAfter st = withCarry st c := by
  have h : ∀ (st : Byte) (b : Bool), setBit st 0 b = withCarry st b := by decide
  simp only [carryFlag, AluResult.statusAfter, setFlag, h]

/-- A result without flags leaves STATUS. -/
@[simp] theorem statusAfter_noFlags (v st : Byte) : (noFlags v).statusAfter st = st := rfl

/-- A result with all three flags writes C, DC and Z. -/
theorem statusAfter_all (r : AluResult) (st : Byte) {c dc z : Bool} (hc : r.c = some c) (hd : r.dc = some dc) (hz : r.z = some z) :
    r.statusAfter st = withFlags st c dc z := by
  have h : ∀ (st : Byte) (c dc z : Bool), setBit (setBit (setBit st 0 c) 1 dc) 2 z = withFlags st c dc z := by decide
  simp only [AluResult.statusAfter, setFlag, hc, hd, hz, h]

/-- Addition: the eight bits, and STATUS with its carry, nibble carry and zero (41_arithmetic_shift.md R150). -/
theorem addFlags_spec (a b st : Byte) (cin : Bool) :
    (addFlags a b cin).value = BitVec.ofNat 8 (a.toNat + b.toNat + cin.toNat) ∧
    (addFlags a b cin).statusAfter st = withFlags st (decide (a.toNat + b.toNat + cin.toNat > 0xFF))
      (decide (a.toNat % 16 + b.toNat % 16 + cin.toNat > 0xF)) (decide ((a.toNat + b.toNat + cin.toNat) % 256 = 0)) := by
  refine ⟨rfl, statusAfter_all _ _ rfl rfl ?_⟩
  simp only [addFlags, Option.some.injEq]
  rw [Bool.eq_iff_iff, beq_iff_eq, decide_eq_true_iff, ← BitVec.toNat_inj]
  simp

/-- Subtraction: the eight bits, and STATUS with the inverted borrows and zero (41_arithmetic_shift.md R151). -/
theorem subFlags_spec (m w st : Byte) (bin : Bool) :
    (subFlags m w bin).value = BitVec.ofInt 8 ((m.toNat : Int) - w.toNat - bin.toNat) ∧
    (subFlags m w bin).statusAfter st = withFlags st (decide (w.toNat + bin.toNat ≤ m.toNat))
      (decide (w.toNat % 16 + bin.toNat ≤ m.toNat % 16)) (decide ((w.toNat + bin.toNat) % 256 = m.toNat)) := by
  refine ⟨rfl, statusAfter_all _ _ ?_ ?_ ?_⟩
  · simp only [subFlags, Option.some.injEq, decide_eq_decide]; omega
  · simp only [subFlags, Option.some.injEq, decide_eq_decide]; omega
  · simp only [subFlags, Option.some.injEq]
    rw [Bool.eq_iff_iff, beq_iff_eq, decide_eq_true_iff, ← BitVec.toNat_inj]
    have hm := m.isLt
    have hw := w.isLt
    have hb : bin.toNat < 2 := by cases bin <;> decide
    have h0 : (0 : Byte).toNat = 0 := rfl
    rw [h0]
    simp only [BitVec.toNat_ofInt]
    omega

end Sys2Proof.Machine
end

