-- ==== Sys2Proof/Laws/Memory.lean ====
section
/-! SUPPORT. The laws of memory: a read after a write, the canonical form kept by every memory operation, the bounds
kept, and the same for program words and the erase of a block. -/

namespace Sys2Proof.Machine

/-- An address below every listed one reads as blank. -/
theorem memRead_eq_blank_of_lt {blank : Byte} {m : Memory} {a : Nat} (h : ∀ c ∈ m, a < c.1) :
    memRead blank m a = blank := by
  induction m with
  | nil => rfl
  | cons c m ih =>
    obtain ⟨k, v⟩ := c
    have hk : a < k := h (k, v) (by simp)
    simp only [memRead, if_neg (Nat.ne_of_gt hk)]
    exact ih fun c hc => h c (by simp [hc])

/-- Reading the address written gives the value written. -/
theorem memRead_memWrite_same {blank : Byte} {m : Memory} (h : Memory.wf blank m) (a : Nat) (v : Byte) :
    memRead blank (memWrite blank m a v) a = v := by
  induction m with
  | nil => by_cases hv : v = blank <;> simp [memWrite, memRead, hv]
  | cons c m ih =>
    obtain ⟨k, u⟩ := c
    have hp := List.pairwise_cons.mp h.1
    have htail : Memory.wf blank m := ⟨hp.2, fun c hc => h.2 c (by simp [hc])⟩
    have hgt : ∀ c ∈ m, k < c.1 := hp.1
    simp only [memWrite]
    by_cases h1 : a < k
    · by_cases hv : v = blank
      · have hb : memRead blank m a = blank :=
          memRead_eq_blank_of_lt fun c hc => h1.trans (hgt c hc)
        simp [h1, hv, memRead, Nat.ne_of_gt h1, hb]
      · simp [h1, hv, memRead]
    · by_cases h2 : k = a
      · subst h2
        by_cases hv : v = blank
        · simp [hv, memRead_eq_blank_of_lt hgt]
        · simp [hv, memRead]
      · simp [h1, h2, memRead, ih htail]

/-- Reading any other address gives what it gave. -/
theorem memRead_memWrite_other {blank : Byte} {m : Memory} (h : Memory.wf blank m) {a b : Nat} (v : Byte)
    (hab : b ≠ a) : memRead blank (memWrite blank m a v) b = memRead blank m b := by
  induction m with
  | nil => by_cases hv : v = blank <;> simp [memWrite, memRead, hv, hab.symm]
  | cons c m ih =>
    obtain ⟨k, u⟩ := c
    have hp := List.pairwise_cons.mp h.1
    have htail : Memory.wf blank m := ⟨hp.2, fun c hc => h.2 c (by simp [hc])⟩
    simp only [memWrite]
    by_cases h1 : a < k
    · by_cases hv : v = blank <;> simp [h1, hv, memRead, hab.symm]
    · by_cases h2 : k = a
      · subst h2
        by_cases hv : v = blank <;> simp [hv, memRead, hab.symm]
      · rw [if_neg h1, if_neg h2, memRead, memRead, ih htail]

/-- The addresses of a written memory are those it had, and the one written. -/
theorem mem_memWrite {blank : Byte} {m : Memory} {a : Nat} {v : Byte} {c : Host.Cell}
    (hc : c ∈ memWrite blank m a v) : c ∈ m ∨ (c = (a, v) ∧ v ≠ blank) := by
  induction m with
  | nil =>
    by_cases hv : v = blank
    · simp [memWrite, hv] at hc
    · exact .inr ⟨by simpa [memWrite, hv] using hc, hv⟩
  | cons d m ih =>
    obtain ⟨k, u⟩ := d
    simp only [memWrite] at hc
    split at hc
    · split at hc
      · exact .inl hc
      · rcases List.mem_cons.mp hc with h | h
        · exact .inr ⟨h, by assumption⟩
        · exact .inl h
    · split at hc
      · split at hc
        · exact .inl (List.mem_cons_of_mem _ hc)
        · rcases List.mem_cons.mp hc with h | h
          · exact .inr ⟨h, by assumption⟩
          · exact .inl (List.mem_cons_of_mem _ h)
      · rcases List.mem_cons.mp hc with h | h
        · exact .inl (by simp [h])
        · exact (ih h).imp (List.mem_cons_of_mem _) id

/-- A write keeps the canonical form. -/
theorem memWrite_wf {blank : Byte} {m : Memory} (h : Memory.wf blank m) (a : Nat) (v : Byte) :
    Memory.wf blank (memWrite blank m a v) := by
  refine ⟨?_, fun c hc => ?_⟩
  · induction m with
    | nil => by_cases hv : v = blank <;> simp [memWrite, hv]
    | cons d m ih =>
      obtain ⟨k, u⟩ := d
      have hp := List.pairwise_cons.mp h.1
      have htail : Memory.wf blank m := ⟨hp.2, fun c hc => h.2 c (by simp [hc])⟩
      simp only [memWrite]
      split
      · rename_i hlt
        split
        · exact h.1
        · refine List.pairwise_cons.mpr ⟨fun c hc => ?_, h.1⟩
          rcases List.mem_cons.mp hc with rfl | hc
          · exact hlt
          · exact Nat.lt_trans hlt (hp.1 c hc)
      · rename_i hge
        split
        · rename_i heq
          split
          · exact hp.2
          · exact List.pairwise_cons.mpr ⟨fun c hc => heq ▸ hp.1 c hc, hp.2⟩
        · rename_i hne
          refine List.pairwise_cons.mpr ⟨fun c hc => ?_, ih htail⟩
          rcases mem_memWrite hc with h' | ⟨rfl, -⟩
          · exact hp.1 c h'
          · exact show k < a by omega
  · rcases mem_memWrite hc with h' | ⟨rfl, hv⟩
    · exact h.2 c h'
    · exact hv

/-- A write inside the bounds keeps them. -/
theorem memWrite_within {blank : Byte} {lo hi : Nat} {m : Memory} (h : Memory.within lo hi m) {a : Nat}
    (ha : lo ≤ a ∧ a < hi) (v : Byte) : Memory.within lo hi (memWrite blank m a v) := by
  intro c hc
  rcases mem_memWrite hc with h' | ⟨rfl, -⟩
  · exact h c h'
  · exact ha

/-! ### Program words -/

/-- The two halves joined are the word. -/
theorem joinBytes_hiByte_loByte (x : Word) : joinBytes (hiByte x) (loByte x) = x := by
  apply BitVec.eq_of_getLsbD_eq
  intro i hi
  simp only [joinBytes, hiByte, loByte, BitVec.getLsbD_append, BitVec.getLsbD_extractLsb']
  by_cases h : i < 8
  · simp [h]
  · have h2 : i - 8 < 8 := by omega
    have h3 : 8 + (i - 8) = i := by omega
    simp [h, h2, h3]

/-- A word write keeps the canonical form. -/
theorem wordWrite_wf {blank : Byte} {m : Memory} (h : Memory.wf blank m) (wa v : Word) :
    Memory.wf blank (wordWrite blank m wa v) :=
  memWrite_wf (memWrite_wf h _ _) _ _

/-- A word write inside the bounds keeps them. -/
theorem wordWrite_within {blank : Byte} {lo hi : Nat} {m : Memory} (h : Memory.within lo hi m) {wa : Word}
    (ha : lo ≤ 2 * wa.toNat ∧ 2 * wa.toNat + 1 < hi) (v : Word) :
    Memory.within lo hi (wordWrite blank m wa v) :=
  memWrite_within (memWrite_within h (by omega) _) (by omega) _

/-- Reading the word written gives it back. -/
theorem wordRead_wordWrite_same {blank : Byte} {m : Memory} (h : Memory.wf blank m) (wa v : Word) :
    wordRead blank (wordWrite blank m wa v) wa = v := by
  have h1 := memWrite_wf h (2 * wa.toNat) (hiByte v)
  rw [wordRead, wordWrite, memRead_memWrite_other h1 _ (by omega), memRead_memWrite_same h,
    memRead_memWrite_same h1, joinBytes_hiByte_loByte]

/-- Reading any other word gives what it gave. -/
theorem wordRead_wordWrite_other {blank : Byte} {m : Memory} (h : Memory.wf blank m) {wa wb : Word} (v : Word)
    (hab : wb ≠ wa) : wordRead blank (wordWrite blank m wa v) wb = wordRead blank m wb := by
  have hn : wb.toNat ≠ wa.toNat := fun e => hab (BitVec.eq_of_toNat_eq e)
  have h1 := memWrite_wf h (2 * wa.toNat) (hiByte v)
  simp only [wordRead, wordWrite]
  rw [memRead_memWrite_other h1 _ (by omega), memRead_memWrite_other h _ (by omega),
    memRead_memWrite_other h1 _ (by omega), memRead_memWrite_other h _ (by omega)]

/-- Erasing keeps the canonical form. -/
theorem eraseWords_wf {m : Memory} (h : Memory.wf Layout.unlistedFlash m) (e wa : Word) (n : Nat) :
    Memory.wf Layout.unlistedFlash (eraseWords e m wa n) := by
  induction n with
  | zero => exact h
  | succ n ih => exact wordWrite_wf ih _ _

/-- An erase reads as the erased word on its `n` words and as before elsewhere. -/
theorem wordRead_eraseWords {m : Memory} (h : Memory.wf Layout.unlistedFlash m) (e wa wb : Word) (n : Nat) :
    wordRead Layout.unlistedFlash (eraseWords e m wa n) wb =
      if ∃ j < n, wb = wa + BitVec.ofNat 16 j then e
      else wordRead Layout.unlistedFlash m wb := by
  induction n with
  | zero => simp [eraseWords]
  | succ n ih =>
    rw [eraseWords]
    by_cases hn : wb = wa + BitVec.ofNat 16 n
    · subst hn
      rw [wordRead_wordWrite_same (eraseWords_wf h e wa n), if_pos ⟨n, by omega, rfl⟩]
    · rw [wordRead_wordWrite_other (eraseWords_wf h e wa n) _ hn, ih]
      refine if_congr ⟨fun ⟨j, hj, e⟩ => ⟨j, by omega, e⟩, fun ⟨j, hj, e⟩ => ⟨j, ?_, e⟩⟩ rfl rfl
      rcases Nat.lt_succ_iff_lt_or_eq.mp hj with h' | rfl
      · exact h'
      · exact absurd e hn

/-- Erasing inside the bounds keeps them. -/
theorem eraseWords_within {lo hi : Nat} {m : Memory} (h : Memory.within lo hi m) {e wa : Word} {n : Nat}
    (hlo : lo ≤ 2 * wa.toNat) (hhi : 2 * (wa.toNat + n) ≤ hi) (hn : wa.toNat + n ≤ 65536) :
    Memory.within lo hi (eraseWords e m wa n) := by
  induction n with
  | zero => exact h
  | succ n ih =>
    have he : (wa + BitVec.ofNat 16 n).toNat = wa.toNat + n := by
      rw [BitVec.toNat_add, BitVec.toNat_ofNat]; omega
    exact wordWrite_within (ih (by omega) (by omega)) (by rw [he]; omega) _

/-- The memories at reset have the canonical form. -/
theorem reset_memories_wf :
    Memory.wf Layout.unlistedRam State.reset.data ∧ Memory.wf Layout.unlistedRam State.reset.pram ∧
      Memory.wf Layout.unlistedFlash State.reset.flash :=
  ⟨⟨.nil, by simp [State.reset]⟩, ⟨.nil, by simp [State.reset]⟩, ⟨.nil, by simp [State.reset]⟩⟩

end Sys2Proof.Machine
end

