-- ==== Sys2Proof/Laws/Ops.lean ====
section
/-! SUPPORT. One lemma per shared operation that says once what it can do: if it answers a state, then which. -/

namespace Sys2Proof.Machine

/-! ### Results -/

/-- A settled result is a next state exactly when the operation answered it. -/
@[simp] theorem settle_eq_next {r : Except Fault State} {t : State} : settle r = .next t ↔ r = .ok t := by
  cases r <;> simp [settle]

/-- A settled result is a fault exactly when the operation stopped with it. -/
@[simp] theorem settle_eq_fault {r : Except Fault State} {e : Fault} : settle r = .fault e ↔ r = .error e := by
  cases r <;> simp [settle]

/-- A settled result is never a refusal. -/
@[simp] theorem settle_ne_refused {r : Except Fault State} {e : Refusal} : settle r ≠ .refused e := by
  cases r <;> simp [settle]

/-- A sequence answers exactly when its parts do. -/
theorem bind_eq_ok {α β : Type} {x : Except Fault α} {g : α → Except Fault β} {b : β} :
    (x >>= g) = .ok b ↔ ∃ a, x = .ok a ∧ g a = .ok b := by
  cases x <;> simp [bind, Except.bind]

/-- The first part stopping stops the sequence. -/
@[simp] theorem error_bind {α β : Type} {e : Fault} {g : α → Except Fault β} :
    ((Except.error e : Except Fault α) >>= g) = .error e := rfl

/-- The first part answering runs the rest. -/
@[simp] theorem ok_bind {α β : Type} {a : α} {g : α → Except Fault β} : ((Except.ok a : Except Fault α) >>= g) = g a := rfl

/-! ### Program memory -/

/-- A program word is read only from program RAM, or from flash with FBUSY = 0. -/
theorem pmemRead_eq_ok {s : State} {wa v : Word} : pmemRead s wa = .ok v ↔
    (s.params.inPram wa = true ∧ v = s.pramWord wa) ∨
    (s.params.inPram wa = false ∧ s.params.inFlash wa = true ∧ s.fbusy = false ∧ v = s.flashWord wa) := by
  unfold pmemRead
  cases s.params.inPram wa <;> cases s.params.inFlash wa <;> cases s.fbusy <;> simp [eq_comm]

/-- A program-RAM write changes program RAM alone. -/
theorem pmemWrite_eq (s : State) (wa v : Word) :
    pmemWrite s wa v = { s with pram := (pmemWrite s wa v).pram } := by
  unfold pmemWrite; split <;> rfl

/-- Two regions, one below the other, share no address. -/
theorem inPram_of_inFlash {p : Params} (hd : p.pramEnd.toNat < p.flashBase.toNat) {wa : Word} (h : p.inFlash wa = true) :
    p.inPram wa = false := by
  have hf := of_decide_eq_true h
  exact decide_eq_false fun hp => by omega

/-! ### The file registers -/

/-- A register that is found at an address is listed with it. -/
theorem mem_of_registerAt {p : Params} {a : Word} (h : p.registerAt a ≠ .platform) : (a, p.registerAt a) ∈ p.registers := by
  unfold Params.registerAt at *
  generalize p.registers = l at *
  induction l with
  | nil => exact absurd rfl h
  | cons e l ih =>
    obtain ⟨k, r⟩ := e
    rw [List.lookup_cons] at *
    by_cases hk : a = k
    · subst hk; simp
    · simp only [beq_eq_false_iff_ne.mpr hk] at *
      exact List.mem_cons_of_mem _ (ih h)

/-- Where no address is listed twice, a listed register is found at its address. -/
theorem registerAt_of_mem {p : Params} (hd : (p.registers.map Prod.fst).Nodup) {a : Word} {r : Register}
    (hm : (a, r) ∈ p.registers) : p.registerAt a = r := by
  unfold Params.registerAt
  generalize p.registers = l at *
  induction l with
  | nil => cases hm
  | cons e l ih =>
    obtain ⟨k, u⟩ := e
    rw [List.map_cons, List.nodup_cons] at hd
    rw [List.lookup_cons]
    rcases List.mem_cons.mp hm with h | h
    · cases h; simp
    · have hk : a ≠ k := fun e => hd.1 (e ▸ List.mem_map.mpr ⟨_, h, rfl⟩)
      simp only [beq_eq_false_iff_ne.mpr hk]
      exact ih hd.2 h

/-- A file register is read only at 0x001..0xFFF: memory from 0x080 on, a register below. -/
theorem readFile_eq_ok {a : Word} {s : State} {v : Byte} : readFile a s = .ok v ↔
    a ≠ 0 ∧ a.toNat < Layout.dataEnd ∧
      v = if Layout.dataBase ≤ a.toNat then memRead Layout.unlistedRam s.data a.toNat
          else s.putControlBits a (readRegister (s.params.registerAt a) a s) := by
  unfold readFile
  split
  · rename_i h0; exact ⟨(fun h => by cases h), fun h => absurd h0 h.1⟩
  · rename_i h0
    split
    · rename_i h1; exact ⟨(fun h => by cases h), fun h => absurd h.2.1 (Nat.not_lt.mpr h1)⟩
    · rename_i h1
      split
      · exact ⟨(fun h => by cases h; exact ⟨h0, Nat.lt_of_not_le h1, rfl⟩), fun h => by rw [h.2.2]⟩
      · exact ⟨(fun h => by cases h; exact ⟨h0, Nat.lt_of_not_le h1, rfl⟩), fun h => by rw [h.2.2]⟩

/-- A STATUS write that is accepted stores the byte, and keeps WD and BO. -/
theorem writeStatus_eq_ok {v : Byte} {s t : State} :
    writeStatus v s = .ok t ↔ (v ^^^ s.status) &&& 0x18 = 0 ∧ t = { s with status := v } := by
  unfold writeStatus; split <;> simp_all [eq_comm]

/-- A bit whose place is elsewhere is not in the byte. -/
theorem BitPlace.put_other {p : BitPlace} {a : Word} (h : p.address ≠ a) (b : Bool) (v : Byte) : p.put a b v = v := if_neg h

/-- A bit whose place is elsewhere is not taken from the byte. -/
theorem BitPlace.take_other {p : BitPlace} {a : Word} (h : p.address ≠ a) (v : Byte) (b : Bool) : p.take a v b = b := if_neg h

/-- Where neither GIE nor INT_EN lies, a byte is read as it is. -/
theorem State.putControlBits_other {s : State} {a : Word} (h1 : s.params.gie.address ≠ a) (h2 : s.params.intEn.address ≠ a) (v : Byte) :
    s.putControlBits a v = v := by
  rw [State.putControlBits, BitPlace.put_other h1, BitPlace.put_other h2]

/-- Where neither GIE nor INT_EN lies, a write leaves both. -/
theorem State.takeControlBits_other {s : State} {a : Word} (h1 : s.params.gie.address ≠ a) (h2 : s.params.intEn.address ≠ a) (v : Byte) :
    s.takeControlBits a v = s := by
  rw [State.takeControlBits, BitPlace.take_other h1, BitPlace.take_other h2]

/-- What a file-register write can change: the registers a program may write, the pc through PCL, and data memory. -/
theorem writeRegister_frame {r : Register} {v : Byte} {s t : State} (h : writeRegister r v s = .ok t) :
    t = { s with
      w := t.w, pc := t.pc, status := t.status, iph := t.iph, ipl := t.ipl, dph := t.dph, dpl := t.dpl,
      sph := t.sph, spl := t.spl, mulh := t.mulh, addrx := t.addrx, addrh := t.addrh, addrl := t.addrl,
      datah := t.datah, datal := t.datal, addrsel := t.addrsel, intvech := t.intvech, intvecl := t.intvecl,
      intspd := t.intspd, t0tmr := t.t0tmr } := by
  cases r
  case status => obtain ⟨-, rfl⟩ := writeStatus_eq_ok.mp h; rfl
  all_goals first | (cases h; rfl) | (simp [writeRegister] at h)

/-- A file-register write goes to memory from 0x080 on, to a register below, and stops at 0x000 and above 0xFFF. -/
theorem writeFile_cases {a : Word} {v : Byte} {s t : State} (h : writeFile a v s = .ok t) :
    a ≠ 0 ∧ a.toNat < Layout.dataEnd ∧
      ((Layout.dataBase ≤ a.toNat ∧ t = { s with data := memWrite Layout.unlistedRam s.data a.toNat v }) ∨
       (a.toNat < Layout.dataBase ∧ ∃ u, writeRegister (s.params.registerAt a) v s = .ok u ∧ t = u.takeControlBits a v)) := by
  unfold writeFile at h
  split at h
  · cases h
  · rename_i h0
    split at h
    · cases h
    · rename_i h1
      refine ⟨h0, Nat.lt_of_not_le h1, ?_⟩
      split at h
      · rename_i h2; cases h; exact .inl ⟨h2, rfl⟩
      · rename_i h2
        refine .inr ⟨Nat.lt_of_not_le h2, ?_⟩
        cases hu : writeRegister (s.params.registerAt a) v s with
        | error e => rw [hu] at h; cases h
        | ok u => rw [hu] at h; cases h; exact ⟨u, rfl, rfl⟩

/-- What a file-register write leaves unchanged. -/
theorem writeFile_frame {a : Word} {v : Byte} {s t : State} (h : writeFile a v s = .ok t) :
    t = { s with
      w := t.w, pc := t.pc, status := t.status, iph := t.iph, ipl := t.ipl, dph := t.dph, dpl := t.dpl,
      sph := t.sph, spl := t.spl, mulh := t.mulh, addrx := t.addrx, addrh := t.addrh, addrl := t.addrl,
      datah := t.datah, datal := t.datal, addrsel := t.addrsel, intvech := t.intvech, intvecl := t.intvecl,
      intspd := t.intspd, gie := t.gie, intEn := t.intEn, t0tmr := t.t0tmr, data := t.data } := by
  obtain ⟨-, -, ⟨-, rfl⟩ | ⟨-, u, hr, rfl⟩⟩ := writeFile_cases h
  · rfl
  · rw [writeRegister_frame hr]; rfl

/-- Every byte of data memory but the one addressed reads as before a file-register write. -/
theorem writeFile_memRead_other {a : Word} {v : Byte} {s t : State} (hw : Memory.wf Layout.unlistedRam s.data)
    (h : writeFile a v s = .ok t) {b : Nat} (hb : b ≠ a.toNat) :
    memRead Layout.unlistedRam t.data b = memRead Layout.unlistedRam s.data b := by
  obtain ⟨-, -, ⟨-, rfl⟩ | ⟨-, u, hr, rfl⟩⟩ := writeFile_cases h
  · exact memRead_memWrite_other hw v hb
  · rw [writeRegister_frame hr]; rfl

/-- A file-register write keeps data memory in canonical form and inside its bounds. -/
theorem writeFile_data_wf {a : Word} {v : Byte} {s t : State} (h : writeFile a v s = .ok t)
    (hw : Memory.wf Layout.unlistedRam s.data) (hi : Memory.within Layout.dataBase Layout.dataEnd s.data) :
    Memory.wf Layout.unlistedRam t.data ∧ Memory.within Layout.dataBase Layout.dataEnd t.data := by
  obtain ⟨-, hlt, ⟨hge, rfl⟩ | ⟨-, u, hr, rfl⟩⟩ := writeFile_cases h
  · exact ⟨memWrite_wf hw _ _, memWrite_within hi ⟨hge, hlt⟩ _⟩
  · rw [writeRegister_frame hr]; exact ⟨hw, hi⟩

/-! ### The call stack -/

/-- A push is accepted exactly below 16 entries. -/
theorem callPush_eq_ok {v : Word} {s t : State} : callPush v s = .ok t ↔
    s.callStack.length < Layout.callStackDepth ∧ t = { s with callStack := v :: s.callStack } := by
  unfold callPush; split <;> simp_all [eq_comm]

/-- A pop is answered exactly when something is pushed. -/
theorem callPop_eq_ok {s t : State} {v : Word} : callPop s = .ok (v, t) ↔
    ∃ rest, s.callStack = v :: rest ∧ t = { s with callStack := rest } := by
  unfold callPop
  cases s.callStack <;> simp [eq_comm]

/-! ### Skips -/

/-- The walk ends one word after the first word that is no extender: with `n` extenders from `t` on, at `t + n + 1`. -/
theorem skipWalk_eq_ok {s : State} {fuel : Nat} {t p : Word} : skipWalk s fuel t = .ok p ↔
    ∃ n < fuel, p = t + BitVec.ofNat 16 n + 1 ∧
      (∀ j < n, ∃ w, pmemRead s (t + BitVec.ofNat 16 j) = .ok w ∧ isExtender w = true) ∧
      ∃ w, pmemRead s (t + BitVec.ofNat 16 n) = .ok w ∧ isExtender w = false := by
  have shift (t : Word) (n : Nat) : t + BitVec.ofNat 16 (n + 1) = t + 1 + BitVec.ofNat 16 n := by
    rw [BitVec.add_assoc, Nat.add_comm n 1, BitVec.ofNat_add]
    rfl
  induction fuel generalizing t with
  | zero => simp [skipWalk]
  | succ fuel ih =>
    simp only [skipWalk]
    cases hr : pmemRead s t with
    | error e =>
      refine ⟨fun h => by simp at h, fun ⟨n, _, _, hall, w, hw, _⟩ => ?_⟩
      cases n with
      | zero => simp [hr] at hw
      | succ n => obtain ⟨w', hw', -⟩ := hall 0 (by omega); simp [hr] at hw'
    | ok w0 =>
      by_cases he : isExtender w0
      · simp only [he, if_true]
        refine (ih (t := t + 1)).trans ?_
        constructor
        · rintro ⟨n, hn, hp, hall, w, hw, hx⟩
          refine ⟨n + 1, by omega, by rw [shift, hp], fun j hj => ?_, w, by rw [shift]; exact hw, hx⟩
          cases j with
          | zero => exact ⟨w0, by simpa using hr, he⟩
          | succ j => rw [shift]; exact hall j (by omega)
        · rintro ⟨n, hn, hp, hall, w, hw, hx⟩
          cases n with
          | zero => simp [hr] at hw; subst hw; simp [he] at hx
          | succ n =>
            refine ⟨n, by omega, by rw [hp, shift], fun j hj => ?_, w, by rw [← shift]; exact hw, hx⟩
            have := hall (j + 1) (by omega); rwa [shift] at this
      · simp only [he]
        constructor
        · intro h
          refine ⟨0, by omega, by simpa [eq_comm] using h, by simp, w0, by simpa using hr, by simpa using he⟩
        · rintro ⟨n, hn, hp, hall, w, hw, hx⟩
          cases n with
          | zero => simpa [eq_comm] using hp
          | succ n =>
            obtain ⟨w', hw', hx'⟩ := hall 0 (by omega)
            simp [hr] at hw'; subst hw'; exact absurd hx' he

/-- The end of a skip form changes the pc alone, and only when the condition holds. -/
theorem skipWhen_eq_ok {c : Bool} {s t u : State} : skipWhen c s t = .ok u ↔
    (c = false ∧ u = t) ∨ (c = true ∧ ∃ p, skipTarget s = .ok p ∧ u = { t with pc := p }) := by
  unfold skipWhen
  cases c
  · simp [eq_comm]
  · cases skipTarget s <;> simp [eq_comm]

/-! ### Interrupts -/

/-- Entry happens outside a routine only, and then writes the shadow set, in_isr, GIE, SPDREG and pc. -/
theorem interruptEntry_eq_ok {ra : Word} {s t : State} : interruptEntry ra s = .ok t ↔
    s.inIsr = false ∧ t = { s with
      shadow := saveShadow ra s, inIsr := true, gie := false, spdreg := s.intspd, pc := s.intvec } := by
  unfold interruptEntry
  cases s.inIsr <;> simp [eq_comm]

/-- Return happens inside a routine only; then the saved items are back and GIE is set. -/
theorem interruptReturn_eq_ok {b : Bool} {s t : State} : interruptReturn b s = .ok t ↔
    s.inIsr = true ∧ t = { s with
      w := s.shadow.w, status := s.shadow.status, mulh := s.shadow.mulh, iph := s.shadow.iph, ipl := s.shadow.ipl,
      dph := s.shadow.dph, dpl := s.shadow.dpl, sph := s.shadow.sph, spl := s.shadow.spl,
      addrsel := s.shadow.addrsel, datah := s.shadow.datah, datal := s.shadow.datal,
      spdreg := if b then s.shadow.spdreg else s.spdreg,
      pc := s.shadow.pc, inIsr := false, gie := true } := by
  unfold interruptReturn restoreShadow
  cases s.inIsr <;> simp [eq_comm]

/-! ### The controller -/

/-- Completing changes flash or DATA, and empties the slot. -/
theorem complete_frame (op : FlashOp) (s : State) :
    complete op s = { s with
      flash := (complete op s).flash, datah := (complete op s).datah, datal := (complete op s).datal,
      flashOp := none } := by
  rcases op with ⟨k, a, d, n⟩
  cases k <;> simp only [complete, applyFlashOp] <;> rfl

/-- The controller changes flash, DATA and its slot alone. -/
theorem controllerTick_frame (s : State) :
    controllerTick s = { s with
      flash := (controllerTick s).flash, datah := (controllerTick s).datah, datal := (controllerTick s).datal,
      flashOp := (controllerTick s).flashOp } := by
  unfold controllerTick
  split
  · rfl
  · split
    · exact complete_frame _ s
    · rfl

/-- A waiting operation counts down. -/
theorem controllerTick_wait {s : State} {op : FlashOp} {n : Nat} (h : s.flashOp = some op) (hw : op.wait = n + 1) :
    controllerTick s = { s with flashOp := some { op with wait := n } } := by
  simp [controllerTick, h, hw]

/-- An operation whose wait has run out completes. -/
theorem controllerTick_done {s : State} {op : FlashOp} (h : s.flashOp = some op) (hw : op.wait = 0) :
    controllerTick s = complete op s := by
  simp [controllerTick, h, hw]

/-- An idle controller does nothing. -/
theorem controllerTick_idle {s : State} (h : s.flashOp = none) : controllerTick s = s := by
  simp [controllerTick, h]

end Sys2Proof.Machine
end

