-- ==== Sys2Proof/Laws/Operands.lean ====
section
/-! SUPPORT. One lemma per operand shape that says once what it can do, and what it does when its operand is readable. -/

namespace Sys2Proof.Machine

/-! ### Operands -/

/-- An operand is readable exactly when it has an address that can be read. -/
theorem frRead_eq_ok {f : FileOperand} {s : State} {v : Byte} :
    frRead f s = .ok v ↔ ∃ a, effectiveAddress f s = .ok a ∧ readFile a s = .ok v := bind_eq_ok

/-- An operand read through its address. -/
theorem frRead_of_address {f : FileOperand} {s : State} {a : Word} (h : effectiveAddress f s = .ok a) :
    frRead f s = readFile a s := by
  simp [frRead, h]

/-- `op W,fr` writes W, the flags and pc. -/
theorem fileToW_eq_ok {f : FileOperand} {op : Byte → AluResult} {s t : State} :
    fileToW f op s = .ok t ↔ ∃ v, frRead f s = .ok v ∧ t = resultToW (op v) s := by
  refine bind_eq_ok.trans (exists_congr fun v => and_congr_right fun _ => ?_)
  exact ⟨fun e => (Except.ok.inj e).symm, fun e => by rw [e]⟩

/-- A result goes to a file register unless it writes flags and the register is STATUS. -/
theorem resultToFile_eq_ok {a : Word} {r : AluResult} {s t : State} : resultToFile a r s = .ok t ↔
    ¬(a = Layout.addrStatus ∧ r.writesFlags = true) ∧ writeFile a r.value (s.advance.setFlags r) = .ok t := by
  unfold resultToFile
  split
  · rename_i h; exact ⟨(fun e => by cases e), fun e => absurd h e.1⟩
  · rename_i h; exact ⟨fun e => ⟨h, e⟩, fun e => e.2⟩

/-- `op fr` and `op fr,W` read and write one address. -/
theorem updateFile_eq_ok {f : FileOperand} {op : Byte → AluResult} {s t : State} : updateFile f op s = .ok t ↔
    ∃ a v, effectiveAddress f s = .ok a ∧ readFile a s = .ok v ∧ ¬(a = Layout.addrStatus ∧ (op v).writesFlags = true) ∧
      writeFile a (op v).value (s.advance.setFlags (op v)) = .ok t := by
  simp [updateFile, bind_eq_ok, resultToFile_eq_ok]

/-- `op fr` and `op fr,W` with a readable operand. -/
theorem updateFile_of_read {f : FileOperand} {op : Byte → AluResult} {s : State} {a : Word} {v : Byte}
    (ha : effectiveAddress f s = .ok a) (hv : readFile a s = .ok v) : updateFile f op s = resultToFile a (op v) s := by
  simp [updateFile, ha, hv]

/-- A count-and-skip form into W. -/
theorem countToW_eq_ok {f : FileOperand} {count : Byte → Byte} {cond : Byte → Bool} {s t : State} :
    countToW f count cond s = .ok t ↔
      ∃ v, frRead f s = .ok v ∧ skipWhen (cond (count v)) s { s.advance with w := count v } = .ok t := bind_eq_ok

/-- A count-and-skip form into a file register other than PCL. -/
theorem countInFile_eq_ok {f : FileOperand} {count : Byte → Byte} {cond : Byte → Bool} {s t : State} :
    countInFile f count cond s = .ok t ↔ ∃ a v u, effectiveAddress f s = .ok a ∧ a ≠ Layout.addrPcl ∧ readFile a s = .ok v ∧
      writeFile a (count v) s.advance = .ok u ∧ skipWhen (cond (count v)) s u = .ok t := by
  simp only [countInFile, bind_eq_ok]
  constructor
  · rintro ⟨a, ha, h⟩
    split at h
    · cases h
    · rename_i hp
      obtain ⟨v, hv, u, hu, hs⟩ := by simpa only [bind_eq_ok] using h
      exact ⟨a, v, u, ha, hp, hv, hu, hs⟩
  · rintro ⟨a, v, u, ha, hp, hv, hu, hs⟩
    refine ⟨a, ha, ?_⟩
    rw [if_neg hp]
    simp only [bind_eq_ok]
    exact ⟨v, hv, u, hu, hs⟩

/-- A compare-and-skip or bit-test form. -/
theorem testAndSkip_eq_ok {f : FileOperand} {cond : Byte → Bool} {s t : State} :
    testAndSkip f cond s = .ok t ↔ ∃ v, frRead f s = .ok v ∧ skipWhen (cond v) s s.advance = .ok t := bind_eq_ok

/-- A multiply writes MULH, W and pc. -/
theorem multiplyFile_eq_ok {f : FileOperand} {p : Byte → Byte → Word} {s t : State} :
    multiplyFile f p s = .ok t ↔ ∃ v, frRead f s = .ok v ∧ t = s.advance.setProduct (p s.w v) := by
  refine bind_eq_ok.trans (exists_congr fun v => and_congr_right fun _ => ?_)
  exact ⟨fun e => (Except.ok.inj e).symm, fun e => by rw [e]⟩

/-! ### The data stack -/

/-- A push stores at SP, then counts SP down. -/
theorem pushByte_eq_ok {v : Byte} {s t : State} :
    pushByte v s = .ok t ↔ ∃ u, writeFile s.sp v s.advance = .ok u ∧ t = u.setSp (u.sp - 1) := by
  refine bind_eq_ok.trans (exists_congr fun u => and_congr_right fun _ => ?_)
  exact ⟨fun e => (Except.ok.inj e).symm, fun e => by rw [e]⟩

/-- A pop stores at the operand's address where the operand does not depend on SP. -/
theorem popAddress_eq_ok {f : FileOperand} {s : State} {a : Word} : popAddress f s = .ok a ↔
    isSpOffset f = false ∧ effectiveAddress f s = .ok a ∧ a ≠ Layout.addrSph ∧ a ≠ Layout.addrSpl := by
  unfold popAddress
  cases isSpOffset f
  · simp only [Bool.false_eq_true, if_false, bind_eq_ok]
    constructor
    · rintro ⟨b, hb, h⟩
      split at h
      · cases h
      · rename_i hn; cases h; exact ⟨trivial, hb, fun e => hn (.inl e), fun e => hn (.inr e)⟩
    · rintro ⟨-, hb, h1, h2⟩
      exact ⟨a, hb, if_neg fun h => h.elim h1 h2⟩
  · simp

/-- A pop counts SP up, then stores the byte at SP. -/
theorem popByte_eq_ok {a : Word} {s t : State} : popByte a s = .ok t ↔
    ∃ v, readFile (s.sp + 1) (s.setSp (s.sp + 1)) = .ok v ∧ writeFile a v (s.setSp (s.sp + 1)).advance = .ok t := by
  have e : (s.setSp (s.sp + 1)).sp = s.sp + 1 := joinBytes_hiByte_loByte _
  unfold popByte
  simp only [e]
  exact bind_eq_ok

/-! ### Returns and the ADDR register -/

/-- A return pops the call stack into pc, and sets PA2:0 where asked. -/
theorem returnTo_eq_ok {p : Bool} {s t : State} : returnTo p s = .ok t ↔ ∃ ra rest, s.callStack = ra :: rest ∧
    t = { s with pc := ra, callStack := rest, status := if p then withPage s.status (ra.extractLsb' 13 3) else s.status } := by
  unfold returnTo callPop
  cases s.callStack <;> cases p <;> simp [eq_comm, State.setPage]

/-- The options of a `reti` write the vector and T0TMR alone. -/
theorem retiOptions_eq (n : BitVec 3) (s : State) : retiOptions n s = { s with
    intvech := if n.getLsbD 1 then hiByte (s.pc + 1) else s.intvech
    intvecl := if n.getLsbD 1 then loByte (s.pc + 1) else s.intvecl
    t0tmr := if n.getLsbD 0 then s.t0tmr + s.w else s.t0tmr } := by
  unfold retiOptions
  cases n.getLsbD 1 <;> cases n.getLsbD 0 <;> rfl

/-- Stepping ADDRL adds 2, and only below the carry. -/
theorem stepAddrl_eq_next {x : Byte} {s t : State} :
    stepAddrl x s = .next t ↔ x.toNat < 0xFE ∧ t = { s with addrl := x + 2 } := by
  unfold stepAddrl
  split
  · rename_i h; exact ⟨(fun e => by cases e), fun e => absurd h (Nat.not_le.mpr e.1)⟩
  · rename_i h; exact ⟨(fun e => by cases e; exact ⟨Nat.lt_of_not_le h, rfl⟩), fun e => by rw [e.2]⟩

/-! ### Which writes are accepted -/

/-- A register write has a next state exactly when the register accepts the byte. -/
theorem writeRegister_isOk (r : Register) (v : Byte) (s : State) :
    (∃ t, writeRegister r v s = .ok t) ↔ registerAccepts r v s = true := by
  cases r
  case status => simp [writeRegister, writeStatus_eq_ok, registerAccepts]
  all_goals simp [writeRegister, registerAccepts]

/-- A file-register write has a next state exactly when the address accepts the byte. -/
theorem writeFile_isOk (a : Word) (v : Byte) (s : State) : (∃ t, writeFile a v s = .ok t) ↔ writeAccepts a v s = true := by
  unfold writeFile writeAccepts
  split
  · rename_i h; subst h; simp
  · rename_i h0
    split
    · rename_i h1
      have : ¬ a.toNat < 0x1000 := Nat.not_lt.mpr h1
      simp [this]
    · rename_i h1
      have h1' : a.toNat < 0x1000 := Nat.lt_of_not_le h1
      split
      · rename_i h2
        have h2' : 0x80 ≤ a.toNat := h2
        simp [h1', h2', show a ≠ 0#16 from h0]
      · rename_i h2
        have h2' : ¬ 0x80 ≤ a.toNat := h2
        have e : (∃ t, (writeRegister (s.params.registerAt a) v s).map (·.takeControlBits a v) = .ok t) ↔
            ∃ t, writeRegister (s.params.registerAt a) v s = .ok t := by
          cases writeRegister (s.params.registerAt a) v s <;> simp [Except.map]
        rw [e, writeRegister_isOk]
        simp [h1', h2', show a ≠ 0#16 from h0]

/-- A refused write stops. -/
theorem writeFile_error {a : Word} {v : Byte} {s : State} (h : writeAccepts a v s = false) : ∃ e, writeFile a v s = .error e := by
  cases hw : writeFile a v s with
  | error e => exact ⟨e, rfl⟩
  | ok t => exact absurd ((writeFile_isOk a v s).mp ⟨t, hw⟩) (by simp [h])

/-- Acceptance by a register looks only at STATUS, and for STATUS alone. -/
theorem registerAccepts_congr {r : Register} {v : Byte} {s u : State} (hs : r = .status → u.status = s.status) :
    registerAccepts r v u = registerAccepts r v s := by
  cases r
  case status => simp only [registerAccepts, hs rfl]
  all_goals rfl

/-- Only the address of STATUS names STATUS. -/
theorem registerAt_eq_status {p : Params} {a : Word} (h : p.registerAt a = .status) : a = Layout.addrStatus := by
  have := h ▸ mem_of_registerAt (p := p) (a := a) (by rw [h]; decide)
  simpa [Params.registers] using this

/-- Only the address of PCL names PCL. -/
theorem registerAt_eq_pcl {p : Params} {a : Word} (h : p.registerAt a = .pcl) : a = Layout.addrPcl := by
  have := h ▸ mem_of_registerAt (p := p) (a := a) (by rw [h]; decide)
  simpa [Params.registers] using this

/-- Well-formed parameters: a listed register is found at its address, which is a register's. -/
theorem Params.wf.registerAt {p : Params} (hw : p.wf) {a : Word} {r : Register} (hm : (a, r) ∈ p.registers) :
    p.registerAt a = r ∧ 1 ≤ a.toNat ∧ a.toNat ≤ 0x7F :=
  ⟨registerAt_of_mem (List.nodup_cons.mp hw.addressesDistinct).2 hm, hw.addressesInRange _ hm⟩

/-- Well-formed parameters: program RAM lies below flash, with room between them. -/
theorem Params.wf.disjoint {p : Params} (hw : p.wf) : p.pramEnd.toNat < p.flashBase.toNat := by
  have h1 := hw.pramSize; have h2 := hw.flashSize; have h3 := hw.pramExample; have h4 := hw.flashExample
  simp only [Layout.pramWords, Layout.flashWords] at h1 h2
  omega

/-- The parameters' defaults are well-formed. -/
theorem Params.family_wf : Params.family.wf :=
  { addressesInRange := by decide, addressesDistinct := by decide, pramSize := by decide, flashSize := by decide,
    pramExample := by decide, flashExample := by decide, flashBlocks := by decide, resetVectorInFlash := by decide,
    bitsInRange := by decide, bitsDistinct := by decide }

/-- Well-formed parameters: no control bit lies at the address of a register that the core names and gives its own bits. -/
theorem Params.wf.bits_elsewhere {p : Params} (hw : p.wf) {a : Word} (h : p.registerAt a ∉ [.xcfg, .fcfg, .tctrl, .platform]) :
    p.gie.address ≠ a ∧ p.intEn.address ≠ a :=
  ⟨fun e => h (e ▸ (hw.bitsInRange p.gie (by simp)).2.2), fun e => h (e ▸ (hw.bitsInRange p.intEn (by simp)).2.2)⟩

/-- Below 0x080 a file-register access goes to the register found at the address, and to the control bits there. -/
theorem readWriteFile_below {a : Word} (h1 : 1 ≤ a.toNat) (h2 : a.toNat ≤ 0x7F) (v : Byte) (s : State) :
    readFile a s = .ok (s.putControlBits a (readRegister (s.params.registerAt a) a s)) ∧
    writeFile a v s = (writeRegister (s.params.registerAt a) v s).map (·.takeControlBits a v) := by
  have h0 : a ≠ 0 := by rintro rfl; simp at h1
  have h3 : ¬ Layout.dataEnd ≤ a.toNat := by unfold Layout.dataEnd; omega
  have h4 : ¬ Layout.dataBase ≤ a.toNat := by unfold Layout.dataBase; omega
  unfold readFile writeFile
  rw [if_neg h0, if_neg h3, if_neg h4, if_neg h0, if_neg h3, if_neg h4]
  exact ⟨rfl, rfl⟩

/-- A listed register is what a read or write of its address reaches, with the control bits there. -/
theorem readWriteFile_register {s : State} (hw : s.params.wf) {a : Word} {r : Register} (hm : (a, r) ∈ s.params.registers)
    (v : Byte) : readFile a s = .ok (s.putControlBits a (readRegister r a s)) ∧
    writeFile a v s = (writeRegister r v s).map (·.takeControlBits a v) := by
  obtain ⟨hr, h1, h2⟩ := hw.registerAt hm
  have := readWriteFile_below h1 h2 v s
  rwa [hr] at this

/-- A file-register write keeps the parameters. -/
theorem writeRegister_params {r : Register} {v : Byte} {s t : State} (h : writeRegister r v s = .ok t) : t.params = s.params := by
  rw [writeRegister_frame h]

/-- A listed register that no control bit shares is all that a read or write of its address reaches. -/
theorem readWriteFile_plain {s : State} (hw : s.params.wf) {a : Word} {r : Register} (hm : (a, r) ∈ s.params.registers)
    (hr : r ∉ [.xcfg, .fcfg, .tctrl, .platform]) (v : Byte) :
    readFile a s = .ok (readRegister r a s) ∧ writeFile a v s = writeRegister r v s := by
  obtain ⟨h1, h2⟩ := hw.bits_elsewhere ((hw.registerAt hm).1.symm ▸ hr)
  obtain ⟨h3, h4⟩ := readWriteFile_register hw hm v
  refine ⟨by rw [h3, State.putControlBits_other h1 h2], ?_⟩
  rw [h4]
  cases e : writeRegister r v s with
  | error _ => rfl
  | ok t =>
    have hp := writeRegister_params e
    exact congrArg Except.ok (State.takeControlBits_other (by rwa [hp]) (by rwa [hp]) v)

/-- An address in 0x01..0x7F where no register is listed is a platform device's. -/
theorem registerAt_platform {p : Params} {a : Word} (h : a ∉ p.registers.map Prod.fst) : p.registerAt a = .platform := by
  by_contra hn
  exact h (List.mem_map.mpr ⟨_, mem_of_registerAt hn, rfl⟩)

/-- A file-register write moves pc only at PCL. -/
theorem writeFile_pc {a : Word} {v : Byte} {s t : State} (h : writeFile a v s = .ok t) (hn : a ≠ Layout.addrPcl) : t.pc = s.pc := by
  obtain ⟨_, _, ⟨_, rfl⟩ | ⟨_, u, hr, rfl⟩⟩ := writeFile_cases h
  · rfl
  · by_cases hs : s.params.registerAt a = .pcl
    · exact absurd (registerAt_eq_pcl hs) hn
    · generalize s.params.registerAt a = r at *
      cases r
      case pcl => exact absurd rfl hs
      case status => obtain ⟨_, rfl⟩ := writeStatus_eq_ok.mp hr; rfl
      all_goals first | (cases hr; rfl) | (simp [writeRegister] at hr)

/-- Acceptance looks only at STATUS (for the address of STATUS), and at the parameters. -/
theorem writeAccepts_congr {a : Word} {v : Byte} {s u : State} (hs : a = Layout.addrStatus → u.status = s.status)
    (hp : u.params = s.params) : writeAccepts a v u = writeAccepts a v s := by
  unfold writeAccepts
  rw [hp, registerAccepts_congr (fun hr => hs (registerAt_eq_status hr))]

end Sys2Proof.Machine
end

