-- ==== Sys2Proof/Laws/Frame.lean ====
section
/-! SUPPORT. The frame shared by every instruction that works on W, STATUS, pc and the file registers alone. -/

namespace Sys2Proof.Machine

/-- The two states differ at most in pc, in what a file-register write reaches, and in W and STATUS. -/
def FileOnly (s t : State) : Prop := t = { s with
      w := t.w, pc := t.pc, status := t.status, iph := t.iph, ipl := t.ipl, dph := t.dph, dpl := t.dpl,
      sph := t.sph, spl := t.spl, mulh := t.mulh, spdreg := t.spdreg, addrx := t.addrx, addrh := t.addrh, addrl := t.addrl,
      datah := t.datah, datal := t.datal, addrsel := t.addrsel, intvech := t.intvech, intvecl := t.intvecl,
      intspd := t.intspd, gie := t.gie, intEn := t.intEn, t0tmr := t.t0tmr, data := t.data }

/-- Frames compose. -/
theorem FileOnly.trans {s t u : State} (h1 : FileOnly s t) (h2 : FileOnly t u) : FileOnly s u := by
  unfold FileOnly at *; rw [h2, h1]
/-- A state is framed by itself. -/
theorem FileOnly.refl (s : State) : FileOnly s s := rfl
/-- A file-register write. -/
theorem FileOnly.write {a v s t u} (h : writeFile a v u = .ok t) (h0 : FileOnly s u) : FileOnly s t := by
  have h := writeFile_frame h
  refine h0.trans ?_
  unfold FileOnly; rw [h]
/-- A skip. -/
theorem FileOnly.skip {c s u t v} (h : skipWhen c s u = .ok t) (h0 : FileOnly v u) : FileOnly v t := by
  rcases skipWhen_eq_ok.mp h with ⟨_, rfl⟩ | ⟨_, p, hp, rfl⟩
  · exact h0
  · exact h0.trans rfl
/-- A read-modify-write. -/
theorem FileOnly.update {f op s t} (h : updateFile f op s = .ok t) : FileOnly s t := by
  obtain ⟨a, v, _, _, _, h⟩ := updateFile_eq_ok.mp h
  exact FileOnly.write h rfl
/-- A result into a file register. -/
theorem FileOnly.result {a r s t} (h : resultToFile a r s = .ok t) : FileOnly s t := by
  exact FileOnly.write (resultToFile_eq_ok.mp h).2 rfl
/-- A result into W. -/
theorem FileOnly.toW {f op s t} (h : fileToW f op s = .ok t) : FileOnly s t := by
  obtain ⟨v, _, rfl⟩ := fileToW_eq_ok.mp h; rfl
/-- A count and skip into W. -/
theorem FileOnly.countW {f c d s t} (h : countToW f c d s = .ok t) : FileOnly s t := by
  obtain ⟨v, _, h⟩ := countToW_eq_ok.mp h; exact FileOnly.skip h rfl
/-- A count and skip into a file register. -/
theorem FileOnly.countF {f c d s t} (h : countInFile f c d s = .ok t) : FileOnly s t := by
  obtain ⟨a, v, u, _, _, _, hw, h⟩ := countInFile_eq_ok.mp h
  exact FileOnly.skip h (FileOnly.write hw rfl)
/-- A test and skip. -/
theorem FileOnly.test {f d s t} (h : testAndSkip f d s = .ok t) : FileOnly s t := by
  obtain ⟨v, _, h⟩ := testAndSkip_eq_ok.mp h; exact FileOnly.skip h rfl
/-- A multiply. -/
theorem FileOnly.mul {f p s t} (h : multiplyFile f p s = .ok t) : FileOnly s t := by
  obtain ⟨v, _, rfl⟩ := multiplyFile_eq_ok.mp h; rfl
/-- A push. -/
theorem FileOnly.push {v s t} (h : pushByte v s = .ok t) : FileOnly s t := by
  obtain ⟨u, h', rfl⟩ := pushByte_eq_ok.mp h
  exact (FileOnly.write (s := s) h' rfl).trans (show FileOnly u _ from rfl)
/-- A pop. -/
theorem FileOnly.pop {v s t} (h : popByte v s = .ok t) : FileOnly s t := by
  obtain ⟨u, _, h⟩ := popByte_eq_ok.mp h
  exact FileOnly.write h rfl

/-- The instructions that change more than that, and `test`, which may clear the Timer 0 prescaler. -/
def reachesBeyondFile : Instr → Bool
  | .movFrW _ => false
  | .cmpWFr _ => false
  | .clrFr _ => false
  | .subWFr _ => false
  | .subFrW _ => false
  | .decWFr _ => false
  | .decFr _ => false
  | .orWFr _ => false
  | .orFrW _ => false
  | .andWFr _ => false
  | .andFrW _ => false
  | .xorWFr _ => false
  | .xorFrW _ => false
  | .addWFr _ => false
  | .addFrW _ => false
  | .movWFr _ => false
  | .testFr _ => true
  | .notWFr _ => false
  | .notFr _ => false
  | .incWFr _ => false
  | .incFr _ => false
  | .decszWFr _ => false
  | .decszFr _ => false
  | .rrWFr _ => false
  | .rrFr _ => false
  | .rlWFr _ => false
  | .rlFr _ => false
  | .swapWFr _ => false
  | .swapFr _ => false
  | .incszWFr _ => false
  | .incszFr _ => false
  | .csneWFr _ => false
  | .cseWFr _ => false
  | .pushFr _ => false
  | .popFr _ => false
  | .subcWFr _ => false
  | .subcFrW _ => false
  | .decsnzWFr _ => false
  | .decsnzFr _ => false
  | .muluWFr _ => false
  | .mulsWFr _ => false
  | .incsnzWFr _ => false
  | .incsnzFr _ => false
  | .addcWFr _ => false
  | .addcFrW _ => false
  | .loadh _ => false
  | .loadl _ => false
  | .muluWLit _ => false
  | .mulsWLit _ => false
  | .pushLit _ => false
  | .csneWLit _ => false
  | .cseWLit _ => false
  | .retw _ => true
  | .cmpWLit _ => false
  | .subWLit _ => false
  | .addWLit _ => false
  | .movWLit _ => false
  | .orWLit _ => false
  | .andWLit _ => false
  | .xorWLit _ => false
  | .clrbFrBit _ _ => false
  | .setbFrBit _ _ => false
  | .snbFrBit _ _ => false
  | .sbFrBit _ _ => false
  | .call _ => true
  | .jmp _ => false
  | .nop => false
  | .brk => true
  | .retnp => true
  | .ferase => true
  | .cwdt => true
  | .brkx => true
  | .int => true
  | .ret => true
  | .reti _ => true
  | .page _ => false
  | .iwrite => true
  | .iread => true
  | .fwrite => true
  | .fread => true
  | .iwritei => true
  | .ireadi => true
  | .speed _ => false

/-- Every other instruction keeps the frame. -/
theorem exec_fileOnly {i : Instr} {s t : State} (hi : reachesBeyondFile i = false) (h : exec i s = .next t) : FileOnly s t := by
  cases i
  case addFrW f =>
    have h : execAddFrW f s = .next t := h
    unfold execAddFrW at h
    rw [settle_eq_next, bind_eq_ok] at h
    obtain ⟨a, _, h⟩ := h
    obtain ⟨v, _, h⟩ := bind_eq_ok.mp h
    split at h
    · cases h
    · exact FileOnly.result h
  case clrFr f =>
    have h : execClrFr f s = .next t := h
    unfold execClrFr at h
    rw [settle_eq_next, bind_eq_ok] at h
    obtain ⟨a, _, h⟩ := h
    exact FileOnly.result h
  case movFrW f =>
    have h : execMovFrW f s = .next t := h
    unfold execMovFrW at h
    rw [settle_eq_next, bind_eq_ok] at h
    obtain ⟨a, _, h⟩ := h
    exact FileOnly.write h rfl
  case cmpWFr f =>
    have h : execCmpWFr f s = .next t := h
    unfold execCmpWFr at h
    rw [settle_eq_next, bind_eq_ok] at h
    obtain ⟨a, _, h⟩ := h
    cases h; rfl
  case pushFr f =>
    have h : execPushFr f s = .next t := h
    unfold execPushFr at h
    rw [settle_eq_next, bind_eq_ok] at h
    obtain ⟨a, _, h⟩ := h
    exact FileOnly.push h
  case popFr f =>
    have h : execPopFr f s = .next t := h
    unfold execPopFr at h
    rw [settle_eq_next, bind_eq_ok] at h
    obtain ⟨a, _, h⟩ := h
    exact FileOnly.pop h
  all_goals first
    | cases hi; done
    | exact FileOnly.toW (settle_eq_next.mp h)
    | exact FileOnly.update (settle_eq_next.mp h)
    | exact FileOnly.test (settle_eq_next.mp h)
    | exact FileOnly.countW (settle_eq_next.mp h)
    | exact FileOnly.countF (settle_eq_next.mp h)
    | exact FileOnly.mul (settle_eq_next.mp h)
    | exact FileOnly.push (settle_eq_next.mp h)
    | exact FileOnly.skip (settle_eq_next.mp h) rfl
    | (cases h; rfl)
end Sys2Proof.Machine
end

