-- ==== Sys2Proof/Laws/PerInstr.lean ====
section
/-! SUPPORT. The per-instruction family `FixedBits`: the word of every well-formed instruction carries the fixed bits of its
opcode row (30_encoding.md R108). One lemma per constructor. -/

namespace Sys2Proof

/-- The word of the instruction is the row's: `w & mask = match` (30_encoding.md R108). -/
def Laws.FixedBits.Statement (i : Instr) : Prop :=
  i.wellFormed = true → encode i &&& (opcodeRow i).mask = (opcodeRow i).value

/-- Appended fields under a mask of ones above zeros: the high field alone is left. -/
theorem append_and_highMask {n m : Nat} (x : BitVec n) (y : BitVec m) :
    (x ++ y) &&& (BitVec.allOnes n ++ 0#m) = x ++ 0#m := by
  rw [BitVec.and_append, BitVec.and_allOnes, BitVec.and_zero]

/-- The BIT format's word under its mask. -/
theorem bitWord_fixedBits (op : BitVec 2) (b : BitVec 3) (f : FileOperand) :
    bitWord op b f &&& 0xF000 = (0b10#2 ++ op) ++ 0#12 := by
  have h := append_and_highMask (0b10#2 ++ op) (b ++ encodeFile f)
  have e : bitWord op b f = (0b10#2 ++ op) ++ (b ++ encodeFile f) := by
    apply BitVec.eq_of_getLsbD_eq
    intro i hi
    simp only [bitWord, BitVec.getLsbD_append]
    grind
  rw [e]; exact h

theorem Laws.FixedBits.movFrW (f : FileOperand) : Laws.FixedBits.Statement (.movFrW f) := fun _ => append_and_highMask 0b0000001#7 (encodeFile f)
theorem Laws.FixedBits.cmpWFr (f : FileOperand) : Laws.FixedBits.Statement (.cmpWFr f) := fun _ => append_and_highMask 0b0000010#7 (encodeFile f)
theorem Laws.FixedBits.clrFr (f : FileOperand) : Laws.FixedBits.Statement (.clrFr f) := fun _ => append_and_highMask 0b0000011#7 (encodeFile f)
theorem Laws.FixedBits.subWFr (f : FileOperand) : Laws.FixedBits.Statement (.subWFr f) := fun _ => append_and_highMask 0b0000100#7 (encodeFile f)
theorem Laws.FixedBits.subFrW (f : FileOperand) : Laws.FixedBits.Statement (.subFrW f) := fun _ => append_and_highMask 0b0000101#7 (encodeFile f)
theorem Laws.FixedBits.decWFr (f : FileOperand) : Laws.FixedBits.Statement (.decWFr f) := fun _ => append_and_highMask 0b0000110#7 (encodeFile f)
theorem Laws.FixedBits.decFr (f : FileOperand) : Laws.FixedBits.Statement (.decFr f) := fun _ => append_and_highMask 0b0000111#7 (encodeFile f)
theorem Laws.FixedBits.orWFr (f : FileOperand) : Laws.FixedBits.Statement (.orWFr f) := fun _ => append_and_highMask 0b0001000#7 (encodeFile f)
theorem Laws.FixedBits.orFrW (f : FileOperand) : Laws.FixedBits.Statement (.orFrW f) := fun _ => append_and_highMask 0b0001001#7 (encodeFile f)
theorem Laws.FixedBits.andWFr (f : FileOperand) : Laws.FixedBits.Statement (.andWFr f) := fun _ => append_and_highMask 0b0001010#7 (encodeFile f)
theorem Laws.FixedBits.andFrW (f : FileOperand) : Laws.FixedBits.Statement (.andFrW f) := fun _ => append_and_highMask 0b0001011#7 (encodeFile f)
theorem Laws.FixedBits.xorWFr (f : FileOperand) : Laws.FixedBits.Statement (.xorWFr f) := fun _ => append_and_highMask 0b0001100#7 (encodeFile f)
theorem Laws.FixedBits.xorFrW (f : FileOperand) : Laws.FixedBits.Statement (.xorFrW f) := fun _ => append_and_highMask 0b0001101#7 (encodeFile f)
theorem Laws.FixedBits.addWFr (f : FileOperand) : Laws.FixedBits.Statement (.addWFr f) := fun _ => append_and_highMask 0b0001110#7 (encodeFile f)
theorem Laws.FixedBits.addFrW (f : FileOperand) : Laws.FixedBits.Statement (.addFrW f) := fun _ => append_and_highMask 0b0001111#7 (encodeFile f)
theorem Laws.FixedBits.movWFr (f : FileOperand) : Laws.FixedBits.Statement (.movWFr f) := fun _ => append_and_highMask 0b0010000#7 (encodeFile f)
theorem Laws.FixedBits.testFr (f : FileOperand) : Laws.FixedBits.Statement (.testFr f) := fun _ => append_and_highMask 0b0010001#7 (encodeFile f)
theorem Laws.FixedBits.notWFr (f : FileOperand) : Laws.FixedBits.Statement (.notWFr f) := fun _ => append_and_highMask 0b0010010#7 (encodeFile f)
theorem Laws.FixedBits.notFr (f : FileOperand) : Laws.FixedBits.Statement (.notFr f) := fun _ => append_and_highMask 0b0010011#7 (encodeFile f)
theorem Laws.FixedBits.incWFr (f : FileOperand) : Laws.FixedBits.Statement (.incWFr f) := fun _ => append_and_highMask 0b0010100#7 (encodeFile f)
theorem Laws.FixedBits.incFr (f : FileOperand) : Laws.FixedBits.Statement (.incFr f) := fun _ => append_and_highMask 0b0010101#7 (encodeFile f)
theorem Laws.FixedBits.decszWFr (f : FileOperand) : Laws.FixedBits.Statement (.decszWFr f) := fun _ => append_and_highMask 0b0010110#7 (encodeFile f)
theorem Laws.FixedBits.decszFr (f : FileOperand) : Laws.FixedBits.Statement (.decszFr f) := fun _ => append_and_highMask 0b0010111#7 (encodeFile f)
theorem Laws.FixedBits.rrWFr (f : FileOperand) : Laws.FixedBits.Statement (.rrWFr f) := fun _ => append_and_highMask 0b0011000#7 (encodeFile f)
theorem Laws.FixedBits.rrFr (f : FileOperand) : Laws.FixedBits.Statement (.rrFr f) := fun _ => append_and_highMask 0b0011001#7 (encodeFile f)
theorem Laws.FixedBits.rlWFr (f : FileOperand) : Laws.FixedBits.Statement (.rlWFr f) := fun _ => append_and_highMask 0b0011010#7 (encodeFile f)
theorem Laws.FixedBits.rlFr (f : FileOperand) : Laws.FixedBits.Statement (.rlFr f) := fun _ => append_and_highMask 0b0011011#7 (encodeFile f)
theorem Laws.FixedBits.swapWFr (f : FileOperand) : Laws.FixedBits.Statement (.swapWFr f) := fun _ => append_and_highMask 0b0011100#7 (encodeFile f)
theorem Laws.FixedBits.swapFr (f : FileOperand) : Laws.FixedBits.Statement (.swapFr f) := fun _ => append_and_highMask 0b0011101#7 (encodeFile f)
theorem Laws.FixedBits.incszWFr (f : FileOperand) : Laws.FixedBits.Statement (.incszWFr f) := fun _ => append_and_highMask 0b0011110#7 (encodeFile f)
theorem Laws.FixedBits.incszFr (f : FileOperand) : Laws.FixedBits.Statement (.incszFr f) := fun _ => append_and_highMask 0b0011111#7 (encodeFile f)
theorem Laws.FixedBits.csneWFr (f : FileOperand) : Laws.FixedBits.Statement (.csneWFr f) := fun _ => append_and_highMask 0b0100000#7 (encodeFile f)
theorem Laws.FixedBits.cseWFr (f : FileOperand) : Laws.FixedBits.Statement (.cseWFr f) := fun _ => append_and_highMask 0b0100001#7 (encodeFile f)
theorem Laws.FixedBits.pushFr (f : FileOperand) : Laws.FixedBits.Statement (.pushFr f) := fun _ => append_and_highMask 0b0100010#7 (encodeFile f)
theorem Laws.FixedBits.popFr (f : FileOperand) : Laws.FixedBits.Statement (.popFr f) := fun _ => append_and_highMask 0b0100011#7 (encodeFile f)
theorem Laws.FixedBits.subcWFr (f : FileOperand) : Laws.FixedBits.Statement (.subcWFr f) := fun _ => append_and_highMask 0b0100100#7 (encodeFile f)
theorem Laws.FixedBits.subcFrW (f : FileOperand) : Laws.FixedBits.Statement (.subcFrW f) := fun _ => append_and_highMask 0b0100101#7 (encodeFile f)
theorem Laws.FixedBits.decsnzWFr (f : FileOperand) : Laws.FixedBits.Statement (.decsnzWFr f) := fun _ => append_and_highMask 0b0100110#7 (encodeFile f)
theorem Laws.FixedBits.decsnzFr (f : FileOperand) : Laws.FixedBits.Statement (.decsnzFr f) := fun _ => append_and_highMask 0b0100111#7 (encodeFile f)
theorem Laws.FixedBits.muluWFr (f : FileOperand) : Laws.FixedBits.Statement (.muluWFr f) := fun _ => append_and_highMask 0b0101000#7 (encodeFile f)
theorem Laws.FixedBits.mulsWFr (f : FileOperand) : Laws.FixedBits.Statement (.mulsWFr f) := fun _ => append_and_highMask 0b0101010#7 (encodeFile f)
theorem Laws.FixedBits.incsnzWFr (f : FileOperand) : Laws.FixedBits.Statement (.incsnzWFr f) := fun _ => append_and_highMask 0b0101100#7 (encodeFile f)
theorem Laws.FixedBits.incsnzFr (f : FileOperand) : Laws.FixedBits.Statement (.incsnzFr f) := fun _ => append_and_highMask 0b0101101#7 (encodeFile f)
theorem Laws.FixedBits.addcWFr (f : FileOperand) : Laws.FixedBits.Statement (.addcWFr f) := fun _ => append_and_highMask 0b0101110#7 (encodeFile f)
theorem Laws.FixedBits.addcFrW (f : FileOperand) : Laws.FixedBits.Statement (.addcFrW f) := fun _ => append_and_highMask 0b0101111#7 (encodeFile f)
theorem Laws.FixedBits.loadh (k : BitVec 8) : Laws.FixedBits.Statement (.loadh k) := fun _ => append_and_highMask 0x70#8 k
theorem Laws.FixedBits.loadl (k : BitVec 8) : Laws.FixedBits.Statement (.loadl k) := fun _ => append_and_highMask 0x71#8 k
theorem Laws.FixedBits.muluWLit (k : BitVec 8) : Laws.FixedBits.Statement (.muluWLit k) := fun _ => append_and_highMask 0x72#8 k
theorem Laws.FixedBits.mulsWLit (k : BitVec 8) : Laws.FixedBits.Statement (.mulsWLit k) := fun _ => append_and_highMask 0x73#8 k
theorem Laws.FixedBits.pushLit (k : BitVec 8) : Laws.FixedBits.Statement (.pushLit k) := fun _ => append_and_highMask 0x74#8 k
theorem Laws.FixedBits.csneWLit (k : BitVec 8) : Laws.FixedBits.Statement (.csneWLit k) := fun _ => append_and_highMask 0x76#8 k
theorem Laws.FixedBits.cseWLit (k : BitVec 8) : Laws.FixedBits.Statement (.cseWLit k) := fun _ => append_and_highMask 0x77#8 k
theorem Laws.FixedBits.retw (k : BitVec 8) : Laws.FixedBits.Statement (.retw k) := fun _ => append_and_highMask 0x78#8 k
theorem Laws.FixedBits.cmpWLit (k : BitVec 8) : Laws.FixedBits.Statement (.cmpWLit k) := fun _ => append_and_highMask 0x79#8 k
theorem Laws.FixedBits.subWLit (k : BitVec 8) : Laws.FixedBits.Statement (.subWLit k) := fun _ => append_and_highMask 0x7A#8 k
theorem Laws.FixedBits.addWLit (k : BitVec 8) : Laws.FixedBits.Statement (.addWLit k) := fun _ => append_and_highMask 0x7B#8 k
theorem Laws.FixedBits.movWLit (k : BitVec 8) : Laws.FixedBits.Statement (.movWLit k) := fun _ => append_and_highMask 0x7C#8 k
theorem Laws.FixedBits.orWLit (k : BitVec 8) : Laws.FixedBits.Statement (.orWLit k) := fun _ => append_and_highMask 0x7D#8 k
theorem Laws.FixedBits.andWLit (k : BitVec 8) : Laws.FixedBits.Statement (.andWLit k) := fun _ => append_and_highMask 0x7E#8 k
theorem Laws.FixedBits.xorWLit (k : BitVec 8) : Laws.FixedBits.Statement (.xorWLit k) := fun _ => append_and_highMask 0x7F#8 k
theorem Laws.FixedBits.clrbFrBit (f : FileOperand) (b : BitVec 3)  :
    Laws.FixedBits.Statement (.clrbFrBit f b) := fun _ => bitWord_fixedBits 0b00 b f
theorem Laws.FixedBits.setbFrBit (f : FileOperand) (b : BitVec 3)  :
    Laws.FixedBits.Statement (.setbFrBit f b) := fun _ => bitWord_fixedBits 0b01 b f
theorem Laws.FixedBits.snbFrBit (f : FileOperand) (b : BitVec 3)  :
    Laws.FixedBits.Statement (.snbFrBit f b) := fun _ => bitWord_fixedBits 0b10 b f
theorem Laws.FixedBits.sbFrBit (f : FileOperand) (b : BitVec 3)  :
    Laws.FixedBits.Statement (.sbFrBit f b) := fun _ => bitWord_fixedBits 0b11 b f
theorem Laws.FixedBits.call (k : BitVec 13) : Laws.FixedBits.Statement (.call k) := fun _ => append_and_highMask 0b110#3 k
theorem Laws.FixedBits.jmp (k : BitVec 13) : Laws.FixedBits.Statement (.jmp k) := fun _ => append_and_highMask 0b111#3 k
theorem Laws.FixedBits.nop : Laws.FixedBits.Statement (.nop) := fun _ => rfl
theorem Laws.FixedBits.brk : Laws.FixedBits.Statement (.brk) := fun _ => rfl
theorem Laws.FixedBits.retnp : Laws.FixedBits.Statement (.retnp) := fun _ => rfl
theorem Laws.FixedBits.ferase : Laws.FixedBits.Statement (.ferase) := fun _ => rfl
theorem Laws.FixedBits.cwdt : Laws.FixedBits.Statement (.cwdt) := fun _ => rfl
theorem Laws.FixedBits.brkx : Laws.FixedBits.Statement (.brkx) := fun _ => rfl
theorem Laws.FixedBits.int : Laws.FixedBits.Statement (.int) := fun _ => rfl
theorem Laws.FixedBits.ret : Laws.FixedBits.Statement (.ret) := fun _ => rfl
theorem Laws.FixedBits.reti (n : BitVec 3) : Laws.FixedBits.Statement (.reti n) := fun _ => append_and_highMask 0b0000000000001#13 n
theorem Laws.FixedBits.page (n : BitVec 3) : Laws.FixedBits.Statement (.page n) := fun _ => append_and_highMask 0b0000000000010#13 n
theorem Laws.FixedBits.iwrite : Laws.FixedBits.Statement (.iwrite) := fun _ => rfl
theorem Laws.FixedBits.iread : Laws.FixedBits.Statement (.iread) := fun _ => rfl
theorem Laws.FixedBits.fwrite : Laws.FixedBits.Statement (.fwrite) := fun _ => rfl
theorem Laws.FixedBits.fread : Laws.FixedBits.Statement (.fread) := fun _ => rfl
theorem Laws.FixedBits.iwritei : Laws.FixedBits.Statement (.iwritei) := fun _ => rfl
theorem Laws.FixedBits.ireadi : Laws.FixedBits.Statement (.ireadi) := fun _ => rfl
theorem Laws.FixedBits.speed (n : BitVec 8) : Laws.FixedBits.Statement (.speed n) := fun _ => append_and_highMask 0x01#8 n

end Sys2Proof
end

