-- ==== Sys2Proof/Laws/Shapes.lean ====
section
/-! SUPPORT. From the shape of a meaning to the shape of a statement about it (`StoresAt`, `SkipsWhen`). -/

namespace Sys2Proof.Machine

/-- A meaning that ends in one file-register write has the shape `StoresAt`. -/
theorem storesAt_of {i : Instr} {a : Word} {r : Byte} {u s : State}
    (he : exec i s = settle (writeFile a r u)) (hs : a = Layout.addrStatus → u.status = s.status) (hp : u.params = s.params) :
    StoresAt i a r u s := by
  have hc : writeAccepts a r u = writeAccepts a r s := writeAccepts_congr hs hp
  constructor
  · intro h
    obtain ⟨t, ht⟩ := (writeFile_isOk a r u).mpr (hc.trans h)
    exact ⟨t, ht, by rw [he, ht]; rfl⟩
  · intro h
    obtain ⟨e, ht⟩ := writeFile_error (hc.trans h)
    exact ⟨e, by rw [he, ht]; rfl⟩

/-- A read-modify-write meaning has the shape `StoresAt` where it is not a flag writer aimed at STATUS. -/
theorem updateFile_stores {f : FileOperand} {op : Byte → AluResult} {i : Instr} {a : Word} {v r : Byte} {u s : State}
    (ha : effectiveAddress f s = .ok a) (hv : readFile a s = .ok v)
    (he : exec i s = settle (updateFile f op s)) (hr : (op v).value = r) (hu : s.advance.setFlags (op v) = u)
    (hn : a ≠ Layout.addrStatus ∨ (op v).writesFlags = false) (hs : a = Layout.addrStatus → u.status = s.status) (hp : u.params = s.params) :
    StoresAt i a r u s := by
  refine storesAt_of ?_ hs hp
  rw [he, updateFile_of_read ha hv, resultToFile, if_neg, hr, hu]
  rintro ⟨h1, h2⟩
  rcases hn with hn | hn
  · exact hn h1
  · rw [hn] at h2; cases h2

/-- A flag writer aimed at STATUS stops. -/
theorem updateFile_status {f : FileOperand} {op : Byte → AluResult} {i : Instr} {a : Word} {v : Byte} {s : State}
    (ha : effectiveAddress f s = .ok a) (hv : readFile a s = .ok v)
    (he : exec i s = settle (updateFile f op s)) (hw : (op v).writesFlags = true) (hst : a = Layout.addrStatus) :
    exec i s = .fault .flagWriterTargetsStatus := by
  rw [he, updateFile_of_read ha hv, resultToFile, if_pos ⟨hst, hw⟩]; rfl

/-- An `op W,fr` meaning whose operand is read answers a next state. -/
theorem fileToW_run {f : FileOperand} {op : Byte → AluResult} {i : Instr} {v : Byte} {u s : State}
    (hv : frRead f s = .ok v) (he : exec i s = settle (fileToW f op s)) (hu : resultToW (op v) s = u) : exec i s = .next u := by
  rw [he, fileToW, hv]; subst hu; rfl

/-- What a result with Z leaves in W and STATUS. -/
theorem resultToW_zero (v : Byte) (s : State) : resultToW (zeroFlag v) s =
    { s with pc := s.pc + 1, w := v, status := withZero s.status (decide (v = 0)) } := by
  rw [← statusAfter_zeroFlag]; rfl

/-- What a result with Z leaves in STATUS. -/
theorem setFlags_zero (v : Byte) (s : State) : s.advance.setFlags (zeroFlag v) =
    { s with pc := s.pc + 1, status := withZero s.status (decide (v = 0)) } := by
  rw [← statusAfter_zeroFlag]; rfl

/-- A meaning that ends in a skip has the shape `SkipsWhen`. -/
theorem skips_of {c : Bool} {i : Instr} {u s : State} (he : exec i s = settle (skipWhen c s u)) : SkipsWhen c i u s := by
  refine ⟨fun h => ?_, fun p h hp => ?_, fun e h hp => ?_⟩
  · rw [he, h]; rfl
  · rw [he, h, skipWhen, hp]; rfl
  · rw [he, h, skipWhen, hp]; rfl

end Sys2Proof.Machine
end

