-- ==== Sys2Proof/Laws/Step.lean ====
section
/-! SUPPORT. What the environment, the core and a step can do, said once. -/

namespace Sys2Proof.Machine

/-- What moves outside the core; DATA moves only while a read is pending. -/
theorem environment_frame (t : State) : environment t = { t with
    irq := (environment t).irq, resetRequest := (environment t).resetRequest, time := t.time + 1, t0tmr := (environment t).t0tmr,
    t0Prescaler := (environment t).t0Prescaler, wdtCounter := (environment t).wdtCounter, wdtPrescaler := (environment t).wdtPrescaler,
    datah := (environment t).datah, datal := (environment t).datal } ∧
    ((∀ op, t.flashOp = some op → op.kind.isRead = false) → (environment t).datah = t.datah ∧ (environment t).datal = t.datal) := by
  have hp (s : State) : pendingDataTick s = { s with datah := (pendingDataTick s).datah, datal := (pendingDataTick s).datal } ∧
     ((∀ op, s.flashOp = some op → op.kind.isRead = false) → (pendingDataTick s).datah = s.datah ∧ (pendingDataTick s).datal = s.datal) := by
    unfold pendingDataTick; split
    · exact ⟨rfl, fun _ => ⟨rfl, rfl⟩⟩
    · rename_i op ho
      split
      · rename_i hr; exact ⟨rfl, fun h => by rw [h op ho] at hr; cases hr⟩
      · exact ⟨rfl, fun _ => ⟨rfl, rfl⟩⟩
  obtain ⟨h1, h2⟩ := hp (watchdogTick (timer0Tick t))
  constructor
  · unfold environment; simp only []; rw [h1]; rfl
  · intro h
    exact h2 h

/-- A step with a next state is a reset, or the core after the controller; then the environment. -/
theorem step_eq_next_cases {s t : State} (h : step s = .next t) :
    (∃ c, s.resetRequest = some c ∧ t = environment (applyReset c s)) ∨
    (s.resetRequest = none ∧ ∃ u, coreStep (controllerTick s) = .next u ∧ t = environment u) := by
  have this : instructionCycle s = .next t := h
  unfold instructionCycle at this
  split at this
  · rename_i c hc; cases this; exact .inl ⟨c, hc, rfl⟩
  · rename_i hc
    cases hcs : coreStep (controllerTick s) with
    | next u => rw [hcs] at this; cases this; exact .inr ⟨hc, u, rfl, rfl⟩
    | fault e => rw [hcs] at this; cases this
    | refused e => rw [hcs] at this; cases this

/-- The core holds in Break mode, takes an interrupt, or runs the instruction it fetches. -/
theorem coreStep_eq_next_cases {s u : State} (h : coreStep s = .next u) :
    (s.breakMode = true ∧ u = s) ∨ (interruptEntry s.pc s = .ok u) ∨ (∃ w i, fetch s = .ok w ∧ decode w = .ok i ∧ exec i s = .next u) := by
  unfold coreStep at h
  split at h
  · rename_i hb; cases h; exact .inl ⟨hb, rfl⟩
  · split at h
    · exact .inr (.inl (settle_eq_next.mp h))
    · unfold runFetched at h
      split at h
      · cases h
      · rename_i w hw
        split at h
        · cases h
        · rename_i i hi; exact .inr (.inr ⟨w, i, hw, hi, h⟩)

/-- A step with no reset requested, out of Break mode, with no enabled interrupt, runs what it fetches. -/
theorem step_eq_runFetched {s : State} (hr : s.resetRequest = none) (hb : s.breakMode = false) (hi : (s.irq && s.gie) = false) :
    step s = afterCore (runFetched (controllerTick s)) := by
  have hc := controllerTick_frame s
  have h1 : (controllerTick s).breakMode = false := by rw [hc]; exact hb
  have h2 : ((controllerTick s).irq && (controllerTick s).gie) = false := by rw [hc]; exact hi
  show instructionCycle s = _
  unfold instructionCycle; rw [hr]; simp only [coreStep, h1, h2]; rfl

/-- Nothing that would run before the placed word is left pending. -/
theorem placeFetchWord_quiet (s : State) (w : Word) :
    (placeFetchWord s w).breakMode = false ∧ (placeFetchWord s w).irq = false ∧
    (placeFetchWord s w).resetRequest = none ∧ (placeFetchWord s w).flashOp = none := by
  unfold placeFetchWord
  simp only []
  split
  · exact ⟨rfl, rfl, rfl, rfl⟩
  · split <;> exact ⟨rfl, rfl, rfl, rfl⟩

end Sys2Proof.Machine
end

