-- ==== Sys2Proof/Machine/Assembler.lean ====
section
/-! DEFINITION. What the assembler puts into an instruction's operands, and the pseudo-instructions (30_encoding.md R112, R115, R116).
The text grammar itself (R112 to R114, R117, R118) is no part of the machine. -/

namespace Sys2Proof.Machine

/-- `page expr`: a program byte address; n = addr(16:14) (R112). -/
def asmPage (byteAddr : BitVec 17) : Instr := .page (byteAddr.extractLsb' 14 3)

/-- `jmp label`: bits 12:0 of the label's word address (R112). -/
def asmJmp (wordAddr : Word) : Instr := .jmp (wordAddr.extractLsb' 0 13)

/-- `call label`: bits 12:0 of the label's word address (R112). -/
def asmCall (wordAddr : Word) : Instr := .call (wordAddr.extractLsb' 0 13)

/-- `loadh expr`: the high 8 bits of a data address (R112, 90_conflicts.md C12). -/
def asmLoadh (addr : Word) : Instr := .loadh (hiByte addr)

/-- `loadl expr`: the low 8 bits of a data address (R112, 90_conflicts.md C12). -/
def asmLoadl (addr : Word) : Instr := .loadl (loByte addr)

/-- The word address of a program byte address (20_memory.md R75). -/
def wordOfByteAddress (byteAddr : BitVec 17) : Word := byteAddr.extractLsb' 1 16

/-- `lcall target`: `page target`, then `call target` (R116, D40). -/
def asmLcall (byteAddr : BitVec 17) : List Instr := [asmPage byteAddr, asmCall (wordOfByteAddress byteAddr)]

/-- The unconditional long jump idiom: `page target`, then `jmp target` (R116). -/
def asmLongJmp (byteAddr : BitVec 17) : List Instr := [asmPage byteAddr, asmJmp (wordOfByteAddress byteAddr)]

/-- `nops n` (R116, D40). -/
def asmNops (n : Nat) : List Instr := List.replicate n .nop

/-- The operand `wreg` (10_state.md R21). -/
def wregOperand (p : Params) : FileOperand := .direct (p.addrWreg.extractLsb' 0 8)

/-- `inc w`, read as `inc wreg` (R116, 90_conflicts.md C24). -/
def asmIncW (p : Params) : Instr := .incFr (wregOperand p)

/-- `%hi8data(symbol)` (R115). -/
def hi8data (addr : Word) : Byte := hiByte addr

/-- `%lo8data(symbol)` (R115). -/
def lo8data (addr : Word) : Byte := loByte addr

end Sys2Proof.Machine
end

