-- ==== Sys2Proof/Machine/AssemblerText.lean ====
section
/-! DEFINITION. The spelling of assembly text that the spec states exactly: constants, string escapes, symbols, reserved mnemonics, the
precedence of operators, the sizes of data directives (30_encoding.md R113, R114, R117). No step of the machine depends on it. -/

namespace Sys2Proof.Machine

/-- A digit in either case (R113). -/
def digitValue (c : Char) : Option Nat :=
  if '0' ≤ c ∧ c ≤ '9' then some (c.toNat - '0'.toNat)
  else if 'a' ≤ c ∧ c ≤ 'f' then some (c.toNat - 'a'.toNat + 10)
  else if 'A' ≤ c ∧ c ≤ 'F' then some (c.toNat - 'A'.toNat + 10)
  else none

/-- Digits of a base after those already read. -/
def digitsFrom (base : Nat) : Nat → List Char → Option Nat
  | n, [] => some n
  | n, c :: rest =>
    match digitValue c with
    | some d => if d < base then digitsFrom base (n * base + d) rest else none
    | none => none

/-- A constant: character, binary, hexadecimal, octal, decimal (R113, Table 2-2). -/
def asmNumber : List Char → Option Nat
  | [] => none
  | ['\'', c] => some c.toNat
  | ['0'] => some 0
  | '0' :: 'b' :: d :: ds => digitsFrom 2 0 (d :: ds)
  | '0' :: 'x' :: d :: ds => digitsFrom 16 0 (d :: ds)
  | '0' :: 'X' :: d :: ds => digitsFrom 16 0 (d :: ds)
  | '0' :: d :: ds => digitsFrom 8 0 (d :: ds)
  | d :: ds => digitsFrom 10 0 (d :: ds)

/-- The bytes of a string between its quotes, escapes replaced (R113). -/
def asmString : List Char → Option (List Byte)
  | [] => some []
  | '\\' :: 'b' :: rest => (asmString rest).map ((0x08 : Byte) :: ·)
  | '\\' :: 'f' :: rest => (asmString rest).map ((0x0C : Byte) :: ·)
  | '\\' :: 'n' :: rest => (asmString rest).map ((0x0A : Byte) :: ·)
  | '\\' :: 'r' :: rest => (asmString rest).map ((0x0D : Byte) :: ·)
  | '\\' :: 't' :: rest => (asmString rest).map ((0x09 : Byte) :: ·)
  | '\\' :: '\\' :: rest => (asmString rest).map ((0x5C : Byte) :: ·)
  | '\\' :: '"' :: rest => (asmString rest).map ((0x22 : Byte) :: ·)
  | '\\' :: 'x' :: h :: l :: rest =>
    match digitValue h, digitValue l with
    | some x, some y => (asmString rest).map (BitVec.ofNat 8 (16 * x + y) :: ·)
    | _, _ => none
  | '\\' :: _ => none
  | c :: rest => (asmString rest).map (BitVec.ofNat 8 c.toNat :: ·)

/-- The reserved mnemonics of §2.8 (R117), with `muls` for the misprinted `mulb` (90_conflicts.md C25). -/
def reservedMnemonics : List String :=
  ["add", "addc", "and", "break", "call", "clr", "clrb", "cmp", "cse", "csne", "cwdt", "dec", "decsnz", "decsz", "ferase",
   "fread", "fwrite", "inc", "incsnz", "incsz", "int", "iread", "iwrite", "jmp", "loadh", "loadl", "mov", "muls", "mulu"] ++
  ["nop", "not", "or", "page", "pop", "push", "ret", "rl", "rr", "sb", "setb", "snb", "speed", "sub", "subc", "swap", "test", "xor"]

/-- The mnemonics that §4.5 defines and the list omits (R117). -/
def unlistedMnemonics : List String := ["breakx", "ireadi", "iwritei", "reti", "retnp", "retw"]

/-- A character of a symbol (R113). -/
def symbolChar (c : Char) : Bool := c.isAlphanum || c == '.' || c == '_'

/-- A symbol: one or more letters, digits, `.` and `_`, not beginning with a digit, not a reserved mnemonic in lowercase or uppercase
(R112, R113). Reserved register names are those of 10_state.md R44. -/
def asmSymbol (s : List Char) : Bool :=
  match s with
  | [] => false
  | c :: _ => !c.isDigit && s.all symbolChar &&
    reservedMnemonics.all (fun m => m.toList != s && m.toList.map Char.toUpper != s)

/-- The infix operators (R114). -/
inductive AsmInfix where
  | mul | div | mod | lt | shl | gt | shr
  | or | and | xor | orNot
  | add | sub
  deriving DecidableEq, Repr

/-- Precedence, the highest binding first; equal precedence associates left to right (R114). -/
def AsmInfix.precedence : AsmInfix → Nat
  | .mul => 3
  | .div => 3
  | .mod => 3
  | .lt => 3
  | .shl => 3
  | .gt => 3
  | .shr => 3
  | .or => 2
  | .and => 2
  | .xor => 2
  | .orNot => 2
  | .add => 1
  | .sub => 1

/-- The data directives (R114). -/
inductive DataDirective where
  | word | long | half | short
  deriving DecidableEq, Repr

/-- The bytes a data directive emits for one value (R114). -/
def DataDirective.size : DataDirective → Nat
  | .word => 4
  | .long => 4
  | .half => 2
  | .short => 2

end Sys2Proof.Machine
end

