-- ==== Sys2Proof/Tests/Slice0.lean ====
section
/-! SUPPORT. Tests. Expected values come from the spec's worked examples and vectors (95_test_vectors.md, ids S and V), from its opcode
table, or from its rules by hand. Then one witness for each statement that has hypotheses. -/

namespace Sys2Proof.Tests

open Sys2Proof Sys2Proof.Machine

/-! ### Helpers -/

/-- Data memory holding the given bytes. -/
def bytes (l : List (Nat × Byte)) : Memory := l.foldl (fun m c => memWrite 0x00 m c.1 c.2) []

/-- Program RAM holding the given words from word address 0x0100 on. -/
def words (l : List Word) : Memory :=
  (l.zipIdx).foldl (fun m c => wordWrite 0x00 m (0x0100 + BitVec.ofNat 16 c.2) c.1) []

/-- A state in program RAM at word address 0x0100, with the given W, STATUS and data bytes. -/
def st (w status : Byte) (l : List (Nat × Byte)) : State := { State.reset with pc := 0x0100, w := w, status := status, data := bytes l }

/-- The outcome is a next state with the property. -/
def nextWith (p : State → Bool) : Host.Outcome State Fault Refusal → Bool
  | .next t => p t
  | .fault _ => false
  | .refused _ => false

/-- The outcome is this fault. -/
def faultIs (e : Fault) : Host.Outcome State Fault Refusal → Bool
  | .next _ => false
  | .fault x => x == e
  | .refused _ => false

/-- The word runs from the state to a next state with the property. -/
def holds (w : Word) (s : State) (p : State → Bool) : Bool :=
  match decode w with
  | .ok i => nextWith p (exec i s)
  | .error _ => false

/-- The word stops with this fault. -/
def stops (w : Word) (s : State) (e : Fault) : Bool :=
  match decode w with
  | .ok i => faultIs e (exec i s)
  | .error _ => false

/-- A byte of data memory. -/
def at_ (t : State) (a : Nat) : Byte := memRead 0x00 t.data a

theorem exists_next {o : Host.Outcome State Fault Refusal} (h : nextWith (fun _ => true) o = true) : ∃ t, o = .next t := by
  cases o with
  | next t => exact ⟨t, rfl⟩
  | fault e => cases h
  | refused r => cases h

/-! ### Well-formedness: the one check, with an operand it refuses -/

theorem test_wellFormed_refuses_direct_zero : (Instr.movFrW (.direct 0)).wellFormed = false := by decide
theorem test_wellFormed_refuses_direct_zero_bit : (Instr.sbFrBit (.direct 0) 3).wellFormed = false := by decide
theorem test_wellFormed_accepts_bounds :
    (Instr.movFrW (.direct 0x01)).wellFormed = true ∧ (Instr.movFrW (.direct 0xFF)).wellFormed = true ∧
    (Instr.movFrW .indirect).wellFormed = true ∧ (Instr.movFrW (.dpOffset 0)).wellFormed = true ∧
    (Instr.movFrW (.spOffset 127)).wellFormed = true := by decide

/-! ### Decoding: a word of every form, written out from its row of the opcode map (30_encoding.md R108) -/

theorem test_decode_logical :
    decode 0x1699 = .ok (.andFrW (.direct 0x99)) ∧ decode 0x1499 = .ok (.andWFr (.direct 0x99)) ∧
    decode 0x7E0F = .ok (.andWLit 0x0F) ∧ decode 0x1299 = .ok (.orFrW (.direct 0x99)) ∧
    decode 0x1099 = .ok (.orWFr (.direct 0x99)) ∧ decode 0x7D0F = .ok (.orWLit 0x0F) ∧
    decode 0x1A99 = .ok (.xorFrW (.direct 0x99)) ∧ decode 0x1899 = .ok (.xorWFr (.direct 0x99)) ∧
    decode 0x7F0F = .ok (.xorWLit 0x0F) ∧ decode 0x2699 = .ok (.notFr (.direct 0x99)) ∧
    decode 0x2499 = .ok (.notWFr (.direct 0x99)) := by decide
theorem test_decode_add_sub :
    decode 0x1E99 = .ok (.addFrW (.direct 0x99)) ∧ decode 0x1C99 = .ok (.addWFr (.direct 0x99)) ∧
    decode 0x7B12 = .ok (.addWLit 0x12) ∧ decode 0x5E99 = .ok (.addcFrW (.direct 0x99)) ∧
    decode 0x5C99 = .ok (.addcWFr (.direct 0x99)) ∧ decode 0x0A99 = .ok (.subFrW (.direct 0x99)) ∧
    decode 0x0899 = .ok (.subWFr (.direct 0x99)) ∧ decode 0x7AFF = .ok (.subWLit 0xFF) ∧
    decode 0x4A99 = .ok (.subcFrW (.direct 0x99)) ∧ decode 0x4899 = .ok (.subcWFr (.direct 0x99)) ∧
    decode 0x0499 = .ok (.cmpWFr (.direct 0x99)) ∧ decode 0x790F = .ok (.cmpWLit 0x0F) := by decide
theorem test_decode_shift :
    decode 0x0699 = .ok (.clrFr (.direct 0x99)) ∧ decode 0x0E99 = .ok (.decFr (.direct 0x99)) ∧
    decode 0x0C99 = .ok (.decWFr (.direct 0x99)) ∧ decode 0x2A99 = .ok (.incFr (.direct 0x99)) ∧
    decode 0x2899 = .ok (.incWFr (.direct 0x99)) ∧ decode 0x2299 = .ok (.testFr (.direct 0x99)) ∧
    decode 0x3699 = .ok (.rlFr (.direct 0x99)) ∧ decode 0x3499 = .ok (.rlWFr (.direct 0x99)) ∧
    decode 0x3299 = .ok (.rrFr (.direct 0x99)) ∧ decode 0x3099 = .ok (.rrWFr (.direct 0x99)) ∧
    decode 0x3A99 = .ok (.swapFr (.direct 0x99)) ∧ decode 0x3899 = .ok (.swapWFr (.direct 0x99)) ∧
    decode 0x5499 = .ok (.mulsWFr (.direct 0x99)) ∧ decode 0x7375 = .ok (.mulsWLit 0x75) ∧
    decode 0x5099 = .ok (.muluWFr (.direct 0x99)) ∧ decode 0x7275 = .ok (.muluWLit 0x75) ∧
    decode 0x0004 = .ok (.cwdt) := by decide
theorem test_decode_skip :
    decode 0x42F0 = .ok (.cseWFr (.direct 0xF0)) ∧ decode 0x771B = .ok (.cseWLit 0x1B) ∧
    decode 0x40F0 = .ok (.csneWFr (.direct 0xF0)) ∧ decode 0x761B = .ok (.csneWLit 0x1B) ∧
    decode 0x2E18 = .ok (.decszFr (.direct 0x18)) ∧ decode 0x2C99 = .ok (.decszWFr (.direct 0x99)) ∧
    decode 0x4E18 = .ok (.decsnzFr (.direct 0x18)) ∧ decode 0x4C99 = .ok (.decsnzWFr (.direct 0x99)) ∧
    decode 0x3E99 = .ok (.incszFr (.direct 0x99)) ∧ decode 0x3C99 = .ok (.incszWFr (.direct 0x99)) ∧
    decode 0x5A99 = .ok (.incsnzFr (.direct 0x99)) ∧ decode 0x5899 = .ok (.incsnzWFr (.direct 0x99)) ∧
    decode 0x8E99 = .ok (.clrbFrBit (.direct 0x99) 7) ∧ decode 0x9E99 = .ok (.setbFrBit (.direct 0x99) 7) ∧
    decode 0xB00B = .ok (.sbFrBit (.direct 0x0B) 0) ∧ decode 0xA00B = .ok (.snbFrBit (.direct 0x0B) 0) := by decide
theorem test_decode_move_control :
    decode 0x0299 = .ok (.movFrW (.direct 0x99)) ∧ decode 0x2099 = .ok (.movWFr (.direct 0x99)) ∧
    decode 0x7C75 = .ok (.movWLit 0x75) ∧ decode 0x44F0 = .ok (.pushFr (.direct 0xF0)) ∧
    decode 0x74FF = .ok (.pushLit 0xFF) ∧ decode 0x46F0 = .ok (.popFr (.direct 0xF0)) ∧ decode 0xE123 = .ok (.jmp 0x123) ∧
    decode 0xC010 = .ok (.call 0x10) ∧ decode 0x0006 = .ok (.int) ∧ decode 0x0000 = .ok (.nop) ∧ decode 0x0007 = .ok (.ret) ∧
    decode 0x0002 = .ok (.retnp) ∧ decode 0x78F0 = .ok (.retw 0xF0) ∧ decode 0x000C = .ok (.reti 4) := by decide
theorem test_decode_system :
    decode 0x0001 = .ok (.brk) ∧ decode 0x0005 = .ok (.brkx) ∧ decode 0x0003 = .ok (.ferase) ∧ decode 0x001B = .ok (.fread) ∧
    decode 0x001A = .ok (.fwrite) ∧ decode 0x0019 = .ok (.iread) ∧ decode 0x001D = .ok (.ireadi) ∧
    decode 0x0018 = .ok (.iwrite) ∧ decode 0x001C = .ok (.iwritei) ∧ decode 0x7004 = .ok (.loadh 0x04) ∧
    decode 0x718A = .ok (.loadl 0x8A) ∧ decode 0x0012 = .ok (.page 2) ∧ decode 0x01FF = .ok (.speed 0xFF) := by decide
theorem test_decode_operand :
    decode 0x20FF = .ok (.movWFr (.direct 0xFF)) ∧ decode 0x2000 = .ok (.movWFr .indirect) ∧
    decode 0x2108 = .ok (.movWFr (.dpOffset 8)) ∧ decode 0x2188 = .ok (.movWFr (.spOffset 8)) ∧
    decode 0x03FF = .ok (.movFrW (.spOffset 127)) ∧ decode 0x8FFF = .ok (.clrbFrBit (.spOffset 127) 7) := by decide
theorem test_decode_unassigned : (decode 0x001E).isOk = false ∧ (decode 0x00FF).isOk = false ∧ (decode 0x5200).isOk = false ∧
    (decode 0x57FF).isOk = false ∧ (decode 0x6000).isOk = false ∧ (decode 0x6FFF).isOk = false ∧ (decode 0x7500).isOk = false ∧
    (decode 0x75FF).isOk = false := by decide
theorem test_decode_next_to_unassigned : (decode 0x001D).isOk = true ∧ (decode 0x0100).isOk = true ∧ (decode 0x51FF).isOk = true ∧
    (decode 0x5400).isOk = true ∧ (decode 0x5800).isOk = true ∧ (decode 0x5FFF).isOk = true ∧ (decode 0x7000).isOk = true ∧
    (decode 0x74FF).isOk = true ∧ (decode 0x7600).isOk = true := by decide
theorem test_decodeBytes_high_byte_first : decodeBytes [0x7E, 0x0F, 0xAA] = .ok (.andWLit 0x0F, [0xAA]) := by decide
theorem test_decodeBytes_truncated : decodeBytes [0x7E] = .error .truncated := by decide
theorem test_decodeTableWord : decodeTableWord 16 0x1699 = some (.andFrW (.direct 0x99)) ∧ decodeTableWord 16 0x5200 = none := by decide
theorem test_encode_examples : encode (.andFrW (.direct 0x99)) = 0x1699 ∧ encode (.clrbFrBit (.direct 0x99) 7) = 0x8E99 ∧
    encode (.mulsWLit 0x75) = 0x7375 ∧ encode (.page 2) = 0x0012 ∧ encode (.movWFr (.spOffset 8)) = 0x2188 := by decide

/-! ### One step of each instruction -/

/-- S1. -/
theorem test_and_fr_w : holds 0x1699 (st 0x13 0x07 [(0x99, 0x0F)])
    (fun t => at_ t 0x99 == 0x03 && t.status == 0x03 && t.w == 0x13 && t.pc == 0x0101) = true := by decide
/-- S2. -/
theorem test_and_w_fr : holds 0x1499 (st 0x13 0x07 [(0x99, 0x0F)])
    (fun t => t.w == 0x03 && t.status == 0x03 && at_ t 0x99 == 0x0F) = true := by decide
/-- S3. -/
theorem test_and_w_lit : holds 0x7E0F (st 0x50 0x00 []) (fun t => t.w == 0x00 && t.status == 0x04) = true := by decide
/-- S4. -/
theorem test_or_fr_w : holds 0x1299 (st 0x13 0x07 [(0x99, 0x0F)])
    (fun t => at_ t 0x99 == 0x1F && t.status == 0x03 && t.w == 0x13 && t.pc == 0x0101) = true := by decide
/-- S5. -/
theorem test_or_w_fr : holds 0x1099 (st 0x13 0x07 [(0x99, 0x0F)])
    (fun t => t.w == 0x1F && t.status == 0x03 && at_ t 0x99 == 0x0F) = true := by decide
/-- S6. -/
theorem test_or_w_lit : holds 0x7D0F (st 0x50 0x04 []) (fun t => t.w == 0x5F && t.status == 0x00) = true := by decide
/-- S7. -/
theorem test_xor_fr_w : holds 0x1A99 (st 0x13 0x07 [(0x99, 0x0F)])
    (fun t => at_ t 0x99 == 0x1C && t.status == 0x03 && t.w == 0x13 && t.pc == 0x0101) = true := by decide
/-- S8. -/
theorem test_xor_w_fr : holds 0x1899 (st 0x13 0x07 [(0x99, 0x0F)])
    (fun t => t.w == 0x1C && t.status == 0x03 && at_ t 0x99 == 0x0F) = true := by decide
/-- S9. -/
theorem test_xor_w_lit : holds 0x7F0F (st 0x51 0x04 []) (fun t => t.w == 0x5E && t.status == 0x00) = true := by decide
/-- S10. -/
theorem test_not_fr : holds 0x2699 (st 0x13 0x07 [(0x99, 0x1C)])
    (fun t => at_ t 0x99 == 0xE3 && t.status == 0x03 && t.w == 0x13 && t.pc == 0x0101) = true := by decide
/-- S11. -/
theorem test_not_w_fr : holds 0x2499 (st 0x13 0x07 [(0x99, 0x75)])
    (fun t => t.w == 0x8A && t.status == 0x03 && at_ t 0x99 == 0x75) = true := by decide
/-- V-LG17. -/
theorem test_and_status_stops : stops 0x160B (st 0x00 0x00 []) .flagWriterTargetsStatus = true := by decide
/-- V-LG16, at the address of log entry 2. -/
theorem test_xor_w_wreg : holds 0x180A (st 0x3C 0x00 []) (fun t => t.w == 0x00 && t.status == 0x04) = true := by decide
/-- S12. -/
theorem test_add_fr_w : holds 0x1E99 (st 0x02 0x05 [(0x99, 0x7F)])
    (fun t => at_ t 0x99 == 0x81 && t.status == 0x02 && t.w == 0x02 && t.pc == 0x0101) = true := by decide
/-- S13. -/
theorem test_add_w_fr : holds 0x1C99 (st 0x82 0x06 [(0x99, 0x81)])
    (fun t => t.w == 0x03 && t.status == 0x01 && at_ t 0x99 == 0x81) = true := by decide
/-- S14. -/
theorem test_add_w_lit : holds 0x7B12 (st 0x82 0x07 []) (fun t => t.w == 0x94 && t.status == 0x00) = true := by decide
/-- V-A2. -/
theorem test_add_w_lit_wraps : holds 0x7B01 (st 0xFF 0x00 []) (fun t => t.w == 0x00 && t.status == 0x07) = true := by decide
/-- S15. -/
theorem test_addc_fr_w : holds 0x5E99 (st 0x02 0x01 [(0x99, 0x7F)])
    (fun t => at_ t 0x99 == 0x82 && t.status == 0x02 && t.w == 0x02 && t.pc == 0x0101) = true := by decide
/-- S16. -/
theorem test_addc_w_fr : holds 0x5C99 (st 0x92 0x01 [(0x99, 0x71)])
    (fun t => t.w == 0x04 && t.status == 0x01 && at_ t 0x99 == 0x71) = true := by decide
/-- V-A11. -/
theorem test_addc_w_fr_wraps : holds 0x5C80 (st 0xFF 0x01 [(0x80, 0x00)])
    (fun t => t.w == 0x00 && t.status == 0x07) = true := by decide
/-- S17. -/
theorem test_sub_fr_w : holds 0x0A99 (st 0x06 0x06 [(0x99, 0x35)])
    (fun t => at_ t 0x99 == 0x2F && t.status == 0x01 && t.w == 0x06 && t.pc == 0x0101) = true := by decide
/-- S18. -/
theorem test_sub_w_fr : holds 0x0899 (st 0x06 0x06 [(0x99, 0x35)])
    (fun t => t.w == 0x2F && t.status == 0x01 && at_ t 0x99 == 0x35) = true := by decide
/-- S19 with the DC of conflict C6. -/
theorem test_sub_w_lit : holds 0x7AFF (st 0x06 0x04 []) (fun t => t.w == 0xF9 && t.status == 0x03) = true := by decide
/-- S20. -/
theorem test_subc_fr_w : holds 0x4A99 (st 0x06 0x00 [(0x99, 0x35)])
    (fun t => at_ t 0x99 == 0x2E && t.status == 0x01 && t.w == 0x06 && t.pc == 0x0101) = true := by decide
/-- S21. -/
theorem test_subc_w_fr : holds 0x4899 (st 0x06 0x00 [(0x99, 0x35)])
    (fun t => t.w == 0x2E && t.status == 0x01 && at_ t 0x99 == 0x35) = true := by decide
/-- V-B12. -/
theorem test_subc_fr_w_zero_with_borrow : holds 0x4A80 (st 0xFF 0x00 [(0x80, 0x00)])
    (fun t => at_ t 0x80 == 0x00 && t.status == 0x04 && t.w == 0xFF && t.pc == 0x0101) = true := by decide
/-- S23. -/
theorem test_cmp_w_fr : holds 0x0499 (st 0x06 0x06 [(0x99, 0x35)])
    (fun t => t.w == 0x06 && t.status == 0x01 && at_ t 0x99 == 0x35) = true := by decide
/-- V-B17. -/
theorem test_cmp_w_lit : holds 0x790F (st 0x06 0x04 []) (fun t => t.w == 0x06 && t.status == 0x03) = true := by decide
/-- S25. -/
theorem test_clr_fr : holds 0x0699 (st 0x06 0x03 [(0x99, 0x35)])
    (fun t => at_ t 0x99 == 0x00 && t.status == 0x07 && t.w == 0x06 && t.pc == 0x0101) = true := by decide
/-- V-LG3. -/
theorem test_dec_fr : holds 0x0E80 (st 0x00 0x01 [(0x80, 0x00)])
    (fun t => at_ t 0x80 == 0xFF && t.status == 0x01 && t.pc == 0x0101) = true := by decide
/-- S27. -/
theorem test_dec_w_fr : holds 0x0C99 (st 0x00 0x04 [(0x99, 0x75)])
    (fun t => t.w == 0x74 && t.status == 0x00 && at_ t 0x99 == 0x75) = true := by decide
/-- V-LG1. -/
theorem test_inc_fr : holds 0x2A80 (st 0x00 0x00 [(0x80, 0xFF)])
    (fun t => at_ t 0x80 == 0x00 && t.status == 0x04 && t.pc == 0x0101) = true := by decide
/-- S29. -/
theorem test_inc_w_fr : holds 0x2899 (st 0x00 0x04 [(0x99, 0x75)])
    (fun t => t.w == 0x76 && t.status == 0x00 && at_ t 0x99 == 0x75) = true := by decide
/-- V-LG8. -/
theorem test_test_fr : holds 0x2280 (st 0x11 0x00 [(0x80, 0x00)])
    (fun t => at_ t 0x80 == 0x00 && t.status == 0x04 && t.w == 0x11 && t.pc == 0x0101) = true := by decide
/-- R167, at the address of log entry 2. -/
theorem test_test_t0tmr_clears_prescaler : holds 0x2242 ({ st 0x00 0x04 [] with t0tmr := 0x10, t0Prescaler := 0x55 })
    (fun t => t.t0tmr == 0x10 && t.t0Prescaler == 0x00 && t.status == 0x00) = true := by decide
/-- S31. -/
theorem test_rl_fr : holds 0x3699 (st 0x00 0x01 [(0x99, 0x14)])
    (fun t => at_ t 0x99 == 0x29 && t.status == 0x00 && t.pc == 0x0101) = true := by decide
/-- S32. -/
theorem test_rl_w_fr : holds 0x3499 (st 0x00 0x01 [(0x99, 0x14)])
    (fun t => t.w == 0x29 && t.status == 0x00 && at_ t 0x99 == 0x14) = true := by decide
/-- S33. -/
theorem test_rr_fr : holds 0x3299 (st 0x00 0x01 [(0x99, 0x12)])
    (fun t => at_ t 0x99 == 0x89 && t.status == 0x00 && t.pc == 0x0101) = true := by decide
/-- S34. -/
theorem test_rr_w_fr : holds 0x3099 (st 0x00 0x01 [(0x99, 0x12)])
    (fun t => t.w == 0x89 && t.status == 0x00 && at_ t 0x99 == 0x12) = true := by decide
/-- V-RO3, Z left alone. -/
theorem test_rl_fr_carry_out : holds 0x3680 (st 0x00 0x00 [(0x80, 0x80)])
    (fun t => at_ t 0x80 == 0x00 && t.status == 0x01 && t.pc == 0x0101) = true := by decide
/-- V-RO5, Z left alone. -/
theorem test_rr_fr_carry_out : holds 0x3280 (st 0x00 0x00 [(0x80, 0x01)])
    (fun t => at_ t 0x80 == 0x00 && t.status == 0x01 && t.pc == 0x0101) = true := by decide
/-- S35. -/
theorem test_swap_fr : holds 0x3A99 (st 0x00 0x07 [(0x99, 0xA5)])
    (fun t => at_ t 0x99 == 0x5A && t.status == 0x07 && t.pc == 0x0101) = true := by decide
/-- S36. -/
theorem test_swap_w_fr : holds 0x3899 (st 0x00 0x07 [(0x99, 0xA5)])
    (fun t => t.w == 0x5A && t.status == 0x07 && at_ t 0x99 == 0xA5) = true := by decide
/-- S38. -/
theorem test_muls_w_fr : holds 0x5499 (st 0xF9 0x07 [(0x99, 0x06)])
    (fun t => t.mulh == 0xFF && t.w == 0xD6 && t.status == 0x07) = true := by decide
/-- S39. -/
theorem test_muls_w_fr_positive : holds 0x5499 (st 0xF9 0x07 [(0x99, 0xFA)])
    (fun t => t.mulh == 0x00 && t.w == 0x2A) = true := by decide
/-- V-M6. -/
theorem test_muls_w_lit : holds 0x737F (st 0x80 0x00 []) (fun t => t.mulh == 0xC0 && t.w == 0x80) = true := by decide
/-- V-M4. -/
theorem test_mulu_w_fr : holds 0x5080 (st 0xFF 0x00 [(0x80, 0xFF)]) (fun t => t.mulh == 0xFE && t.w == 0x01) = true := by decide
/-- V-M9. -/
theorem test_mulu_w_lit : holds 0x72FF (st 0x80 0x00 []) (fun t => t.mulh == 0x7F && t.w == 0x80) = true := by decide
/-- V-X24. -/
theorem test_cwdt : holds 0x0004 ({ st 0x00 0x04 [] with wdtCounter := 9, wdtPrescaler := 5 })
    (fun t => t.wdtCounter == 0 && t.wdtPrescaler == 0 && t.status == 0x04) = true := by decide
/-- V-S4. -/
theorem test_cse_w_lit_extended : holds 0x7705 ({ st 0x05 0x00 [] with pram := words [0x7705, 0x0012, 0xE123, 0x0000] })
    (fun t => t.pc == 0x0103 && t.status == 0x00) = true := by decide
/-- V-S5. -/
theorem test_cse_w_lit_no_skip : holds 0x7705 ({ st 0x04 0x00 [] with pram := words [0x7705, 0x0012, 0xE123, 0x0000] })
    (fun t => t.pc == 0x0101) = true := by decide
/-- V-S3. -/
theorem test_csne_w_lit : holds 0x7605 (st 0x05 0x00 []) (fun t => t.pc == 0x0101) = true := by decide
/-- V-S16. -/
theorem test_cse_w_fr : holds 0x4280 (st 0x00 0x00 [(0x80, 0x00)])
    (fun t => t.pc == 0x0102 && t.status == 0x00) = true := by decide
/-- S46. -/
theorem test_csne_w_fr : holds 0x40F0 (st 0x05 0x00 [(0xF0, 0x06)]) (fun t => t.pc == 0x0102 && t.w == 0x05) = true := by decide
/-- V-S6. -/
theorem test_decsz_fr_extended : holds 0x2E80 ({ st 0x00 0x00 [(0x80, 0x01)] with pram := words [0x2E80, 0x0010, 0x0011, 0x7142, 0x2A81, 0x0000] })
    (fun t => t.pc == 0x0105 && at_ t 0x80 == 0x00 && t.dpl == 0x00) = true := by decide
/-- V-S7. -/
theorem test_decsz_fr_no_skip : holds 0x2E80 (st 0x00 0x00 [(0x80, 0x00)])
    (fun t => t.pc == 0x0101 && at_ t 0x80 == 0xFF) = true := by decide
/-- V-S15. -/
theorem test_decsz_w_fr : holds 0x2C80 (st 0x09 0x00 [(0x80, 0x01)])
    (fun t => t.pc == 0x0102 && t.w == 0x00 && at_ t 0x80 == 0x01 && t.status == 0x00) = true := by decide
/-- V-S13. -/
theorem test_decsnz_fr : holds 0x4E80 (st 0x00 0x00 [(0x80, 0x02)])
    (fun t => t.pc == 0x0102 && at_ t 0x80 == 0x01) = true := by decide
/-- V-S14. -/
theorem test_decsnz_w_fr : holds 0x4C80 (st 0x09 0x00 [(0x80, 0x01)])
    (fun t => t.pc == 0x0101 && t.w == 0x00 && at_ t 0x80 == 0x01) = true := by decide
/-- V-S11. -/
theorem test_incsz_fr : holds 0x3E80 (st 0x00 0x00 [(0x80, 0xFF)])
    (fun t => t.pc == 0x0102 && at_ t 0x80 == 0x00) = true := by decide
/-- S53. -/
theorem test_incsz_w_fr : holds 0x3C99 (st 0x00 0x00 [(0x99, 0xFF)])
    (fun t => t.pc == 0x0102 && t.w == 0x00 && at_ t 0x99 == 0xFF) = true := by decide
/-- V-S12. -/
theorem test_incsnz_fr : holds 0x5A80 (st 0x00 0x00 [(0x80, 0xFF)])
    (fun t => t.pc == 0x0101 && at_ t 0x80 == 0x00) = true := by decide
/-- S55. -/
theorem test_incsnz_w_fr : holds 0x5899 (st 0x00 0x00 [(0x99, 0x07)]) (fun t => t.pc == 0x0102 && t.w == 0x08) = true := by decide
/-- V-S17. -/
theorem test_decsz_pcl_stops : stops 0x2E09 (st 0x00 0x00 []) .skipOnPcl = true := by decide
/-- V-T1. -/
theorem test_clrb : holds 0x8080 (st 0x00 0x07 [(0x80, 0xFF)])
    (fun t => at_ t 0x80 == 0xFE && t.status == 0x07 && t.pc == 0x0101) = true := by decide
/-- V-T5. -/
theorem test_clrb_status_z : holds 0x840B (st 0x00 0x07 []) (fun t => t.status == 0x03) = true := by decide
/-- V-T3. -/
theorem test_setb : holds 0x9E80 (st 0x00 0x00 [(0x80, 0x00)])
    (fun t => at_ t 0x80 == 0x80 && t.status == 0x00 && t.pc == 0x0101) = true := by decide
/-- V-T4. -/
theorem test_setb_status_c : holds 0x900B (st 0x00 0xE6 []) (fun t => t.status == 0xE7) = true := by decide
/-- V-S10. -/
theorem test_sb_extended : holds 0xB40B ({ st 0x00 0x04 [] with pram := words [0xB40B, 0x7004, 0x718A, 0x0007, 0x0000] })
    (fun t => t.pc == 0x0104 && t.dph == 0x00 && t.callStack == []) = true := by decide
/-- V-S8. -/
theorem test_snb_extended_by_breakx : holds 0xA00B ({ st 0x00 0x00 [] with pram := words [0xA00B, 0x0005, 0x0001, 0x0000] })
    (fun t => t.pc == 0x0103 && t.breakMode == false) = true := by decide
/-- S62. -/
theorem test_mov_fr_w : holds 0x0299 (st 0x5A 0x07 [(0x99, 0x00)])
    (fun t => at_ t 0x99 == 0x5A && t.status == 0x07 && t.w == 0x5A && t.pc == 0x0101) = true := by decide
/-- V-LG18. -/
theorem test_mov_w_fr : holds 0x2080 (st 0x09 0x03 [(0x80, 0x00)]) (fun t => t.w == 0x00 && t.status == 0x07) = true := by decide
/-- V-LG19. -/
theorem test_mov_w_lit : holds 0x7C00 (st 0x55 0x00 []) (fun t => t.w == 0x00 && t.status == 0x00) = true := by decide
/-- Program P3, word 0x0004. -/
theorem test_push_lit : holds 0x7435 ({ st 0x00 0x00 [] with sph := 0x01, spl := 0xFF })
    (fun t => at_ t 0x1FF == 0x35 && t.sp == 0x01FE) = true := by decide
/-- Program P6, word 0x0010. -/
theorem test_push_fr : holds 0x44FE ({ st 0x00 0x00 [(0xFE, 0xBB)] with sph := 0x01, spl := 0xFD })
    (fun t => at_ t 0x1FD == 0xBB && t.sp == 0x01FC) = true := by decide
/-- Program P3, word 0x0006. -/
theorem test_pop_fr : holds 0x4680 ({ st 0x00 0x00 [(0x1FE, 0x06)] with sph := 0x01, spl := 0xFD })
    (fun t => at_ t 0x80 == 0x06 && t.sp == 0x01FE) = true := by decide
/-- R225. -/
theorem test_pop_sp_offset_stops : stops 0x47FF (st 0x00 0x00 []) .popDependsOnSp = true := by decide
/-- V-S5: after `page 0x8000`, `jmp` with 0x0123 goes to 0x4123. -/
theorem test_jmp : holds 0xE123 (st 0x00 0x40 []) (fun t => t.pc == 0x4123 && t.status == 0x40) = true := by decide
/-- Program P2, word 0x0001, moved to 0x0100. -/
theorem test_call : holds 0xC004 (st 0x00 0x00 []) (fun t => t.pc == 0x0004 && t.callStack == [0x0101]) = true := by decide
/-- R235. -/
theorem test_ret_sets_page : holds 0x0007 ({ st 0x00 0x1F [] with callStack := [0xA123, 0x0001] })
    (fun t => t.pc == 0xA123 && t.status == 0xBF && t.callStack == [0x0001]) = true := by decide
/-- R236. -/
theorem test_retnp_keeps_page : holds 0x0002 ({ st 0x00 0x1F [] with callStack := [0xA123] })
    (fun t => t.pc == 0xA123 && t.status == 0x1F && t.callStack == []) = true := by decide
/-- Program P2, word 0x0007. -/
theorem test_retw : holds 0x780F ({ st 0x02 0x00 [] with callStack := [0x0002] })
    (fun t => t.pc == 0x0002 && t.w == 0x0F) = true := by decide
/-- Program P2, word 0x0004, moved to 0x0104. -/
theorem test_add_pcl : holds 0x1E09 ({ st 0x02 0x00 [] with pc := 0x0104 })
    (fun t => t.pc == 0x0107 && t.status == 0x00) = true := by decide
/-- Program P5, word 0x0101. -/
theorem test_int : holds 0x0006 ({ st 0x11 0x00 [] with pc := 0x0101, gie := true, spdreg := 0x12, intspd := 0x34 })
    (fun t => t.pc == 0x0000 && t.shadow.pc == 0x0102 && t.shadow.w == 0x11 && t.shadow.spdreg == 0x12 && t.spdreg == 0x34 && t.gie == false && t.inIsr) = true := by decide
/-- R232: INT_EN = 1. -/
theorem test_int_disabled : holds 0x0006 ({ st 0x11 0x00 [] with gie := true, intEn := true })
    (fun t => t.pc == 0x0101 && t.inIsr == false) = true := by decide
/-- Program P5, word 0x0003. -/
theorem test_reti : holds 0x000A ({ st 0x00 0x07 [] with pc := 0x0003, inIsr := true, spdreg := 0x34, shadow := { Shadow.reset with pc := 0x0102, w := 0x11, spdreg := 0x12 } })
    (fun t => t.pc == 0x0102 && t.w == 0x11 && t.status == 0x00 && t.intvec == 0x0004 && t.spdreg == 0x34 && t.gie && t.inIsr == false) = true := by decide
/-- R289: the W of the routine. -/
theorem test_reti_adds_w_to_t0tmr : holds 0x000D ({ st 0x05 0x00 [] with inIsr := true, t0tmr := 0xFE, spdreg := 0x34, shadow := { Shadow.reset with w := 0x11, spdreg := 0x12 } })
    (fun t => t.t0tmr == 0x03 && t.w == 0x11 && t.spdreg == 0x12) = true := by decide
/-- V-E1. -/
theorem test_nop : holds 0x0000 (st 0x11 0x07 []) (fun t => t == { st 0x11 0x07 [] with pc := 0x0101 }) = true := by decide
/-- V-X23. -/
theorem test_break : holds 0x0001 (st 0x00 0x00 []) (fun t => t.breakMode && t.pc == 0x0101) = true := by decide
/-- S80. -/
theorem test_breakx : holds 0x0005 (st 0x00 0x00 []) (fun t => t.breakMode && t.pc == 0x0101) = true := by decide
/-- V-X19: the block of 0x18200. -/
theorem test_ferase : holds 0x0003 ({ st 0x00 0x00 [] with addrx := 0x01, addrh := 0x82, addrl := 0x00 })
    (fun t => t.fbusy && t.flashOp.map FlashOp.addr == some 0x018200 && t.pc == 0x0101) = true := by decide
/-- V-X20. -/
theorem test_ferase_unaligned : stops 0x0003 ({ st 0x00 0x00 [] with addrx := 0x01, addrh := 0x83, addrl := 0x00 }) .eraseBlockUnaligned = true := by decide
/-- V-X21. -/
theorem test_ferase_outside_flash : holds 0x0003 ({ st 0x00 0x00 [] with addrx := 0x00, addrh := 0x02, addrl := 0x00 })
    (fun t => t.fbusy == false && t.pc == 0x0101) = true := by decide
/-- S82, the issue. -/
theorem test_fread : holds 0x001B ({ st 0x00 0x00 [] with addrx := 0x01, addrh := 0x83, addrl := 0x80 })
    (fun t => t.fbusy && t.flashOp.map FlashOp.addr == some 0x018380) = true := by decide
/-- S83, the issue. -/
theorem test_fwrite : holds 0x001A ({ st 0x00 0x00 [] with addrx := 0x01, addrh := 0x83, addrl := 0x80, datah := 0x12, datal := 0x34 })
    (fun t => t.flashOp.map FlashOp.data == some 0x1234) = true := by decide
/-- S84. -/
theorem test_iread : holds 0x0019 ({ st 0x00 0x00 [] with addrx := 0x00, addrh := 0x03, addrl := 0x80, pram := wordWrite 0x00 [] 0x01C0 0xABCD })
    (fun t => t.datah == 0xAB && t.datal == 0xCD && t.addrl == 0x80) = true := by decide
/-- S85. -/
theorem test_ireadi : holds 0x001D ({ st 0x00 0x00 [] with addrx := 0x00, addrh := 0x03, addrl := 0x80, pram := wordWrite 0x00 [] 0x01C0 0xABCD })
    (fun t => t.dataWord == 0xABCD && t.addrl == 0x82) = true := by decide
/-- S86. -/
theorem test_iwrite : holds 0x0018 ({ st 0x00 0x00 [] with addrx := 0x00, addrh := 0x03, addrl := 0x80, datah := 0xAB, datal := 0xCD })
    (fun t => t.pramWord 0x01C0 == 0xABCD && t.addrl == 0x80) = true := by decide
/-- S87. -/
theorem test_iwritei : holds 0x001C ({ st 0x00 0x00 [] with addrx := 0x00, addrh := 0x03, addrl := 0x80, datah := 0xAB, datal := 0xCD })
    (fun t => t.pramWord 0x01C0 == 0xABCD && t.addrl == 0x82) = true := by decide
/-- R88: the word at pc + 2. -/
theorem test_iwrite_prefetched : stops 0x0018 ({ st 0x00 0x00 [] with addrx := 0x00, addrh := 0x02, addrl := 0x04 }) .writesPrefetchedWord = true := by decide
/-- S88. -/
theorem test_loadh : holds 0x7004 (st 0x00 0x00 []) (fun t => t.dph == 0x04 && t.dpl == 0x00) = true := by decide
/-- S88. -/
theorem test_loadl : holds 0x718A (st 0x00 0x00 []) (fun t => t.dpl == 0x8A && t.dph == 0x00) = true := by decide
/-- S89. -/
theorem test_page : holds 0x0012 (st 0x00 0xBF []) (fun t => t.status == 0x5F) = true := by decide
/-- R264. -/
theorem test_speed : holds 0x0193 (st 0x00 0x00 []) (fun t => t.spdreg == 0x93) = true := by decide

/-! ### The step -/

/-- The controller completes `fread` before the next instruction (S82, V-Z6: the order of R292). -/
theorem test_controller_completes_fread :
    (controllerTick { st 0x00 0x00 [] with
      flash := wordWrite 0xFF [] 0xC1C0 0x1234
      flashOp := some { kind := .fread, addr := 0x018380, data := 0, wait := 0 } }).dataWord = 0x1234 := by decide
/-- V-Z3. -/
theorem test_hardware_interrupt :
    nextWith (fun t => t.pc == 0x0000 && t.shadow.pc == 0x0456 && t.gie == false && t.spdreg == 0x34)
      (step { st 0x00 0x00 [] with pc := 0x0456, irq := true, gie := true, intspd := 0x34 }) = true := by decide
/-- V-Z5. -/
theorem test_nested_interrupt_stops :
    faultIs .nestedInterrupt (step { st 0x00 0x00 [] with irq := true, gie := true, inIsr := true }) = true := by decide
/-- V-Z7. -/
theorem test_break_mode_holds :
    nextWith (fun t => t.pc == 0x0100 && t.breakMode) (step { st 0x00 0x00 [] with breakMode := true, irq := true, gie := true }) = true := by
  decide
/-- V-Z1 and V-Z2 but for WD: the vector of log entry 4. -/
theorem test_watchdog_reset :
    nextWith (fun t => t.pc == 0xFFF0 && t.callStack == [] && t.gie == false && t.data == [] && t.pram == [] && t.flash == [(0x18380, 0x12)])
      (step { st 0x00 0x00 [(0x80, 1)] with
        resetRequest := some .watchdog, gie := true, callStack := [1], flash := [(0x18380, 0x12)] }) = true := by decide
/-- V-X22. -/
theorem test_fetch_from_busy_flash_stops :
    faultIs .flashAccessWhileBusy (step { st 0x00 0x00 [] with
      pc := 0x8000, flashOp := some { kind := .fread, addr := 0x018380, data := 0, wait := 3 } }) = true := by decide
/-- The placed word is the next step's, from reset. -/
theorem test_withFetchWord : nextWith (fun t => t.w == 0x75 && t.pc == 0xFFF1) (step (State.reset.withFetchWord 16 0x7C75)) = true := by decide

/-! ### The assembler's operands (30_encoding.md R112, R116; S88, S89, S93) -/

theorem test_asm_operands : asmLoadh 0x048A = .loadh 0x04 ∧ asmLoadl 0x048A = .loadl 0x8A ∧ asmPage 0x8000 = .page 2 ∧
    asmLcall 0x8246 = [.page 2, .call 0x0123] ∧ asmNops 2 = [.nop, .nop] ∧ encode (asmIncW .family) = 0x2A0A := by decide
/-- S91, S92. -/
theorem test_asm_numbers : asmNumber ['\'', 'f'] = some 102 ∧ asmNumber ['6', '5'] = some 65 ∧
    asmNumber ['0', 'b', '0', '1', '0', '0', '0', '0', '0', '1'] = some 65 ∧ asmNumber ['0', 'x', '4', '1'] = some 65 ∧
    asmNumber ['0', 'X', '4', '1'] = some 65 ∧ asmNumber ['0', '1', '0', '1'] = some 65 ∧ asmNumber ['\'', 'A'] = some 65 := by decide
/-- R113. -/
theorem test_asm_string : asmString ['A', '\\', 'n', '\\', 'x', '4', '1', '\\', '"'] = some [0x41, 0x0A, 0x41, 0x22] := by decide

/-! ### Witnesses: for each statement with hypotheses, operands and a state that meet them, one for each clause at a bound of its range -/

/-- An `mov w,(ip)` state whose operand is the byte 0x5A of data address 0x080. -/
def wit : State := { st 0x01 0x00 [(0x80, 0x5A), (0xFFF, 0x01)] with ipl := 0x80 }

theorem wit_inv : wit.Inv :=
  ⟨Params.family_wf, by decide, by decide, by decide, by decide, by decide, by decide, by decide, by decide, by decide⟩

/-- Another machine: flash at 0x6000 and the reset vector in it, an erased word of zeros, XCFG elsewhere, GIE in a register
of its own, INT_EN in TCTRL, FBUSY at bit 7. -/
def moved : Params :=
  { Params.family with addrXcfg := 0x01D, flashBase := 0x6000, flashEnd := 0xDFFF, erasedWord := 0x0000, resetVector := 0xDFF0, fbusyBit := 7,
                       gie := { address := 0x018, bit := 2 }, intEn := { address := 0x01B, bit := 0 } }

theorem moved_wf : moved.wf :=
  { addressesInRange := by decide, addressesDistinct := by decide, pramSize := by decide, flashSize := by decide,
    pramExample := by decide, flashExample := by decide, flashBlocks := by decide, resetVectorInFlash := by decide,
    bitsInRange := by decide, bitsDistinct := by decide }

/-- The `wit` state on that machine. -/
def mwit : State := { wit with params := moved }

/-- GIE is set and cleared by writes to its register (60_exceptions.md R282), and INT_EN reads in TCTRL, which takes no write (10_state.md
R38, R43). -/
theorem test_moved_gie : writeFile 0x018 0x04 mwit = .ok { mwit with gie := true } ∧
    writeFile 0x018 0xFB { mwit with gie := true } = .ok mwit ∧ readFile 0x01B { mwit with intEn := true } = .ok 0x01 ∧
    writeFile 0x01B 0x01 mwit = .error .unwritableRegister := by decide
/-- `fread` works from where flash no longer is (46_system_control.md R253). -/
theorem test_moved_flash : faultIs .flashInstructionFromFlash (exec .fread { mwit with pc := 0x6000 }) = true ∧
    nextWith (fun t => t.pc == 0xE001) (exec .fread { mwit with pc := 0xE000 }) = true := by decide

theorem witness_DecodeInvertsEncode : (Instr.addWFr (.direct 0x01)).wellFormed = true ∧ (Instr.addWFr (.direct 0xFF)).wellFormed = true ∧
    (Instr.jmp 0x1FFF).wellFormed = true := by decide
theorem witness_EncodeInvertsDecode : decode 0x0000 = .ok .nop ∧ decode 0xFFFF = .ok (.jmp 0x1FFF) := by decide
theorem witness_UnassignedWordsAreRefused :
    let s : State := { st 0x00 0x00 [] with pram := words [0x001E] }
    s.resetRequest = none ∧ s.breakMode = false ∧ (s.irq && s.gie) = false ∧ fetch (controllerTick s) = .ok 0x001E ∧
    decode 0x001E = .error .unassignedMisc := by decide
theorem witness_StepKeepsInvariant : wit.Inv ∧ ∃ t, step wit = .next t := ⟨wit_inv, exists_next (by decide)⟩
theorem witness_StepRunsDecodedInstruction :
    let s : State := { st 0x00 0x00 [] with pram := words [0x7C75] }
    s.resetRequest = none ∧ s.breakMode = false ∧ (s.irq && s.gie) = false ∧ fetch (controllerTick s) = .ok 0x7C75 ∧
    decode 0x7C75 = .ok (.movWLit 0x75) := by decide
/-- The last clause on the environment: no read is pending, with the slot empty and with a write in it. -/
theorem witness_StepRunsDecodedInstruction_noRead :
    (∀ op, wit.flashOp = some op → op.kind.isRead = false) ∧ FlashKind.isRead .fwrite = false ∧ FlashKind.isRead .extWrite = false :=
  ⟨(fun _ h => by cases h), rfl, rfl⟩
theorem witness_WithFetchWordRunsTheWord : wit.Inv ∧ decode 0x0000 = .ok .nop ∧ decode 0xFFFF = .ok (.jmp 0x1FFF) := ⟨wit_inv, by decide⟩
theorem witness_ResetStep : ({ wit with resetRequest := some .watchdog } : State).resetRequest = some .watchdog ∧
    ({ wit with resetRequest := some .brownOut } : State).resetRequest = some .brownOut := by decide
theorem witness_WatchdogResetsWhenExpired : ∃ t, step wit = .next t := exists_next (by decide)

/-- Both ends of each range of `f`, with DP = SP = 0x001F so that offset 0 is below 0x20 and offset 1 is not. -/
theorem witness_EffectiveAddressRule :
    let s : State := { wit with dpl := 0x1F, spl := 0x1F }
    effectiveAddress (decodeFile 0x000) s = .ok 0x0080 ∧ effectiveAddress (decodeFile 0x001) s = .ok 0x0001 ∧
    effectiveAddress (decodeFile 0x0FF) s = .ok 0x00FF ∧ effectiveAddress (decodeFile 0x100) s = .error .offsetBelow20 ∧
    effectiveAddress (decodeFile 0x101) s = .ok 0x0020 ∧ effectiveAddress (decodeFile 0x17F) s = .ok 0x009E ∧
    effectiveAddress (decodeFile 0x180) s = .error .offsetBelow20 ∧ effectiveAddress (decodeFile 0x181) s = .ok 0x0020 ∧
    effectiveAddress (decodeFile 0x1FF) s = .ok 0x009E := by decide
/-- The ranges of addresses: 0x001 and 0x07F are platform or named-only registers, 0x080 and 0xFFF data, 0x1000 and 0xFFFF beyond. XCFG on
two machines. -/
theorem witness_FileRegisterRead : wit.params.wf ∧ mwit.params.wf ∧ readFile 0x001 wit = .ok (Config.platformRead 0x001 0) ∧
    readFile 0x07F wit = .ok (Config.platformRead 0x07F 0) ∧ readFile 0x080 wit = .ok 0x5A ∧ readFile 0xFFF wit = .ok 0x01 ∧
    readFile 0x1000 wit = .error .dataAddressBeyond4K ∧ readFile 0xFFFF wit = .error .dataAddressBeyond4K ∧
    readFile 0x01C { wit with flashOp := some ⟨.fread, 0x018380, 0, 3⟩ } = .ok 0x01 ∧
    readFile 0x01D { mwit with flashOp := some ⟨.fread, 0x018380, 0, 3⟩ } = .ok 0x80 :=
  ⟨Params.family_wf, moved_wf, rfl, rfl, rfl, rfl, rfl, rfl, rfl, rfl⟩
/-- The ranges of addresses, both outcomes of STATUS, both of XCFG, and GIE at a register of its own. -/
theorem witness_FileRegisterWrite : wit.params.wf ∧ writeFile 0x001 0xFF wit = .ok wit ∧ writeFile 0x07D 0xFF wit = .ok wit ∧
    writeFile 0x080 0x00 wit = .ok { wit with data := [(0xFFF, 0x01)] } ∧ writeFile 0xFFF 0x00 wit = .ok { wit with data := [(0x80, 0x5A)] } ∧
    writeFile 0x1000 0x00 wit = .error .dataAddressBeyond4K ∧ writeFile 0x00B 0xE7 wit = .ok { wit with status := 0xE7 } ∧
    writeFile 0x00B 0x08 wit = .error .statusWdBo ∧ writeFile 0x01C 0x88 wit = .error .unwritableRegister ∧
    writeFile 0x01C 0x89 wit = .error .fbusyReadOnly ∧ writeFile 0x01A 0x00 wit = .error .unwritableRegister ∧
    mwit.params.wf ∧ writeFile 0x018 0xFF mwit = .ok { mwit with gie := true } :=
  ⟨Params.family_wf, by decide, by decide, by decide, by decide, by decide, by decide, by decide, by decide, by decide, by decide, moved_wf,
    by decide⟩
theorem witness_DataMemoryReadsBack : Memory.wf 0x00 wit.data ∧ (∃ t, writeFile 0x080 0x77 wit = .ok t) ∧ (∃ t, writeFile 0xFFF 0x00 wit = .ok t) :=
  ⟨by decide, ⟨_, rfl⟩, ⟨_, rfl⟩⟩
theorem witness_UnreadableOperandStops : frRead .indirect { wit with ipl := 0x00 } = .error .dataAddressZero ∧
    frRead (.dpOffset 0x1F) wit = .error .offsetBelow20 ∧ frRead .indirect { wit with iph := 0x10 } = .error .dataAddressBeyond4K ∧
    effectiveAddress (.dpOffset 0x1F) wit = .error .offsetBelow20 ∧ effectiveAddress (.dpOffset 0x20) wit = .ok 0x020 := by decide
/-- What stops a form that only writes is its effective address; `pop` with an `offset(sp)` operand stops for its own reason in every state
(30_encoding.md R104, 44_data_movement.md R225, 95_test_vectors.md V-DM12). -/
theorem test_pop_offset_sp_first : faultIs .popDependsOnSp (exec (.popFr (.spOffset 0x00)) wit) = true ∧
    faultIs .popDependsOnSp (exec (.popFr (.spOffset 0x7F)) wit) = true ∧
    faultIs .offsetBelow20 (exec (.popFr (.dpOffset 0x00)) wit) = true ∧ faultIs .offsetBelow20 (exec (.movFrW (.spOffset 0x1F)) wit) = true := by
  decide

/-- An operand that is read: the hypothesis of every statement on a form with destination W. -/
theorem witness_operandRead : frRead .indirect wit = .ok 0x5A ∧ frRead (.direct 0x0B) wit = .ok 0x00 ∧ frRead (.dpOffset 0x7F) { wit with dpl := 0x01 } = .ok 0x5A := by
  decide
theorem witness_LogicalIntoW : frRead .indirect wit = .ok 0x5A := by decide
theorem witness_MoveAndCountIntoW : frRead (.direct 0xFF) wit = .ok 0x00 := by decide
theorem witness_AdditionIntoW : frRead (.direct 0x80) wit = .ok 0x5A := by decide
theorem witness_SubtractionIntoW : frRead (.direct 0x80) wit = .ok 0x5A := by decide
theorem witness_CarryAdditionIntoW : frRead (.direct 0x80) { wit with status := 0x01 } = .ok 0x5A := by decide
theorem witness_BorrowSubtractionIntoW : frRead (.direct 0x80) { wit with status := 0x01 } = .ok 0x5A := by decide
theorem witness_CompareWritesFlagsOnly : frRead (.direct 0x0B) wit = .ok 0x00 := by decide
theorem witness_RotateSwapIntoW : frRead .indirect { wit with iph := 0x0F, ipl := 0xFF } = .ok 0x01 := by decide
theorem witness_MultiplyIntoMulhAndW : frRead (.direct 0x0A) wit = .ok 0x01 := by decide

/-- An address and its byte: the hypotheses of every statement on a form with destination `fr`, for a data byte whose write is accepted
and for SPDREG, whose write is not. -/
theorem witness_operandUpdated : effectiveAddress (.direct 0x80) wit = .ok 0x080 ∧ readFile 0x080 wit = .ok 0x5A ∧ (0x080 : Word) ≠ 0x00B ∧
    writeAccepts 0x080 0xFF wit = true ∧ effectiveAddress (.direct 0x0E) wit = .ok 0x00E ∧ readFile 0x00E wit = .ok 0x93 ∧
    writeAccepts 0x00E 0xFF wit = false := by decide
/-- The clauses on STATUS as destination. -/
theorem witness_operandIsStatus : effectiveAddress (.direct 0x0B) wit = .ok 0x00B ∧ readFile 0x00B wit = .ok 0x00 := by decide
theorem witness_LogicalIntoFile : effectiveAddress .indirect wit = .ok 0x080 ∧ readFile 0x080 wit = .ok 0x5A ∧
    effectiveAddress (.direct 0x0B) wit = .ok 0x00B ∧ readFile 0x00B wit = .ok 0x00 := by decide
theorem witness_DecIncIntoFile : effectiveAddress .indirect wit = .ok 0x080 ∧ readFile 0x080 wit = .ok 0x5A ∧
    effectiveAddress (.direct 0x0B) wit = .ok 0x00B ∧ readFile 0x00B wit = .ok 0x00 := by decide
/-- The clauses on a data byte, on T0TMR and on STATUS. -/
theorem witness_MoveClearTestFile : effectiveAddress .indirect wit = .ok 0x080 ∧ readFile 0x080 wit = .ok 0x5A ∧
    effectiveAddress (.direct 0x42) wit = .ok 0x042 ∧ effectiveAddress (.direct 0x0B) wit = .ok 0x00B ∧
    wit.params.wf ∧ (0x042 : Word) = wit.params.addrT0tmr := ⟨by decide, by decide, by decide, by decide, Params.family_wf, by decide⟩
/-- The clauses on `add` to PCL: with pc = 0x00FD, PCL reads 0xFE, so that W = 0x01 does not carry and W = 0x02 does. -/
theorem witness_AdditionIntoFile : effectiveAddress (.direct 0x09) wit = .ok 0x009 ∧ readFile 0x009 { wit with pc := 0x00FD } = .ok 0xFE ∧
    ¬(0xFE + 0x01 > 0xFF) ∧ 0xFE + 0x02 > 0xFF ∧ effectiveAddress (.direct 0x0B) wit = .ok 0x00B ∧ readFile 0x00B wit = .ok 0x00 := by decide
theorem witness_SubtractionIntoFile : effectiveAddress .indirect wit = .ok 0x080 ∧ readFile 0x080 wit = .ok 0x5A ∧
    effectiveAddress (.direct 0x0B) wit = .ok 0x00B ∧ readFile 0x00B wit = .ok 0x00 := by decide
theorem witness_RotateSwapIntoFile : effectiveAddress .indirect wit = .ok 0x080 ∧ readFile 0x080 wit = .ok 0x5A ∧
    effectiveAddress (.direct 0x0B) wit = .ok 0x00B ∧ readFile 0x00B wit = .ok 0x00 := by decide
/-- `clrb` and `setb` on STATUS: C may change, WD may not. -/
theorem witness_BitWritesIntoFile : effectiveAddress (.direct 0x0B) wit = .ok 0x00B ∧ readFile 0x00B wit = .ok 0x00 ∧
    writeAccepts 0x00B 0x01 wit = true ∧ writeAccepts 0x00B 0x10 wit = false := by decide

/-- A word after the skip instruction that is no extender. -/
theorem nop_no_extender : ∀ i, decode 0x0000 = .ok i → (∀ p, i ≠ .page p) ∧ (∀ k, i ≠ .loadh k) ∧ (∀ k, i ≠ .loadl k) ∧ i ≠ .brkx := by
  intro i h
  have e : decode 0x0000 = .ok .nop := by decide
  rw [e] at h; cases h
  exact ⟨(fun p h => by cases h), (fun k h => by cases h), (fun k h => by cases h), by decide⟩
/-- No extender and one extender after the skip instruction. -/
theorem witness_SkipTargetRule : SkipsOver 0 wit ∧ SkipsOver 1 { wit with pram := words [0x7705, 0x0012] } := by
  refine ⟨⟨fun j h => absurd h (Nat.not_lt_zero j), 0x0000, by decide, nop_no_extender⟩, fun j h => ?_, 0x0000, by decide, nop_no_extender⟩
  obtain rfl : j = 0 := by omega
  exact ⟨0x0012, .page 2, by decide, by decide, .inl ⟨2, rfl⟩⟩
/-- The three clauses of `SkipsWhen`: no skip, a skip, and a walk that leaves the memory there is. -/
theorem witness_skips : decide ((0x05 : Byte) = wit.w) = false ∧ decide ((0x01 : Byte) = wit.w) = true ∧ skipTarget wit = .ok 0x0102 ∧
    skipTarget { wit with pc := 0x1FFF } = .error .unbackedProgramAddress := ⟨by decide, by decide, rfl, rfl⟩
theorem witness_CompareAndBitSkips : frRead .indirect wit = .ok 0x5A ∧ skipTarget wit = .ok 0x0102 := ⟨by decide, rfl⟩
theorem witness_CountAndSkipIntoW : frRead .indirect wit = .ok 0x5A ∧ frRead .indirect { wit with iph := 0x0F, ipl := 0xFF } = .ok 0x01 ∧
    skipTarget wit = .ok 0x0102 := ⟨by decide, by decide, rfl⟩
/-- A data byte, a register that refuses the write, and PCL. -/
theorem witness_CountAndSkipInFile : effectiveAddress .indirect wit = .ok 0x080 ∧ readFile 0x080 wit = .ok 0x5A ∧
    writeAccepts 0x080 0x59 wit = true ∧ writeAccepts 0x00E 0x92 wit = false ∧ effectiveAddress (.direct 0x09) wit = .ok 0x009 ∧
    readFile 0x009 wit = .ok 0x01 := by decide
/-- `cse w,#lit8`: it does not skip, it skips over no extender, and over one. -/
theorem witness_CycleCounts :
    let s : State := { wit with pram := words [0x7705, 0x0012] }
    SkipsOver 0 wit ∧ SkipsOver 1 s ∧ exec (.cseWLit 0x05) wit = .next { wit with pc := wit.pc + 1 } ∧
    exec (.cseWLit 0x01) wit = .next { wit with pc := 0x0102 } ∧ exec (.cseWLit 0x01) s = .next { s with pc := 0x0103 } :=
  ⟨witness_SkipTargetRule.1, witness_SkipTargetRule.2, rfl, rfl, rfl⟩
/-- The other rows: PCL and its neighbour as operand and at SP; ADDR at the ends of program RAM and of flash, and outside both. -/
theorem witness_CycleCounts_rows : effectiveAddress (.direct 0x09) wit = .ok 0x009 ∧ effectiveAddress (.direct 0x08) wit = .ok 0x008 ∧
    wit.params.wf ∧ wit.params.ramByte 0x000000 ∧ wit.params.ramByte 0x003FFF ∧ wit.params.flashByte 0x010000 ∧ wit.params.flashByte 0x01FFFF ∧
    ¬wit.params.ramByte 0x004000 ∧ ¬wit.params.flashByte 0x00FFFF ∧ ¬wit.params.flashByte 0x020000 ∧ ¬wit.params.ramByte 0x020000 :=
  ⟨by decide, by decide, Params.family_wf, by decide⟩
/-- SP at the last data address, and beyond it. -/
theorem witness_PushStoresThenDecrements : frRead .indirect wit = .ok 0x5A ∧
    writeAccepts ({ wit with sph := 0x0F, spl := 0xFF } : State).sp 0x5A { wit with sph := 0x0F, spl := 0xFF } = true ∧
    writeAccepts ({ wit with sph := 0x10 } : State).sp 0x5A { wit with sph := 0x10 } = false := by decide
/-- A destination that accepts, one that refuses, the two addresses that depend on SP, and a byte at SP + 1 that cannot be read, at 0x0000 and
at 0x1000 (95_test_vectors.md V-DM10). -/
theorem witness_PopIncrementsThenLoads :
    let s : State := { wit with spl := 0x7F }
    effectiveAddress (.direct 0x81) s = .ok 0x081 ∧ readFile 0x0080 { s with spl := 0x80 } = .ok 0x5A ∧ writeAccepts 0x081 0x5A s = true ∧
    effectiveAddress (.direct 0x0E) s = .ok 0x00E ∧ writeAccepts 0x00E 0x5A s = false ∧
    effectiveAddress (.direct 0x06) s = .ok 0x006 ∧ effectiveAddress (.direct 0x07) s = .ok 0x007 ∧
    readFile 0x0000 { wit with sph := 0x00, spl := 0x00 } = .error .dataAddressZero ∧
    readFile 0x1000 { wit with sph := 0x10, spl := 0x00 } = .error .dataAddressBeyond4K := by decide
/-- Both ends of the range of SP. -/
theorem witness_PushThenPop : Memory.wf 0x00 wit.data ∧ ({ wit with spl := 0x80 } : State).sp = 0x080 ∧
    ({ wit with sph := 0x0F, spl := 0xFF } : State).sp = 0xFFF := by decide

theorem witness_JumpAndCall : wit.callStack.length < 16 ∧ ({ wit with callStack := List.replicate 15 0 } : State).callStack.length < 16 := by decide
theorem witness_ReturnsPopTheCallStack : ({ wit with callStack := [0xA123] } : State).callStack = 0xA123 :: [] := rfl
theorem witness_CallStackLimits : ({ wit with callStack := List.replicate 16 0 } : State).callStack.length = 16 ∧ wit.callStack = [] := by decide
/-- An interrupt, one inside a routine, and no operation by either bit. -/
theorem witness_SoftwareInterrupt : ({ wit with gie := true } : State).gie = true ∧ ({ wit with gie := true } : State).intEn = false ∧
    wit.inIsr = false ∧ ({ wit with inIsr := true } : State).inIsr = true ∧
    ¬(({ wit with gie := true, intEn := true } : State).gie = true ∧ ({ wit with gie := true, intEn := true } : State).intEn = false) ∧
    wit.gie = false := by decide
theorem witness_HardwareInterrupt :
    let s : State := { wit with irq := true, gie := true }
    s.resetRequest = none ∧ s.breakMode = false ∧ s.irq = true ∧ s.gie = true ∧ s.inIsr = false ∧
    ({ s with inIsr := true } : State).inIsr = true := by decide
theorem witness_ReturnFromInterrupt : ({ wit with inIsr := true } : State).inIsr = true ∧ wit.inIsr = false := by decide
theorem witness_InterruptThenReturn :
    let s : State := { wit with irq := true, gie := true }
    s.breakMode = false ∧ s.irq = true ∧ s.gie = true ∧ s.inIsr = false := by decide
theorem witness_BreakModeHoldsTheCore : ({ wit with breakMode := true } : State).breakMode = true ∧ wit.resetRequest = none := by decide

/-- The words beside flash, and byte addresses at its bounds and beside them. -/
theorem witness_FlashInstructionsIssue : wit.flashOp = none ∧
    ¬(wit.params.flashBase.toNat ≤ ({ wit with pc := 0x7FFF } : State).pc.toNat ∧
      ({ wit with pc := 0x7FFF } : State).pc.toNat ≤ wit.params.flashEnd.toNat) ∧
    ¬(mwit.params.flashBase.toNat ≤ ({ mwit with pc := 0xE000 } : State).pc.toNat ∧
      ({ mwit with pc := 0xE000 } : State).pc.toNat ≤ mwit.params.flashEnd.toNat) ∧
    (0x00 : Byte).getLsbD 0 = false ∧ wit.params.flashByte 0x010000 ∧ wit.params.flashByte 0x01FFFE ∧ ¬wit.params.flashByte 0x00FFFE ∧
    ¬wit.params.flashByte 0x020000 ∧ mwit.params.flashByte 0x00C000 ∧ ¬mwit.params.flashByte 0x01C000 := by decide
/-- Busy; from the first and the last word of flash; from program RAM with an odd ADDRH or ADDRL. -/
theorem witness_FlashInstructionGuards :
    ({ wit with flashOp := some ⟨.fread, 0x018380, 0, 3⟩ } : State).flashOp.isSome = true ∧ wit.flashOp = none ∧
    (wit.params.flashBase.toNat ≤ 0x8000 ∧ 0x8000 ≤ wit.params.flashEnd.toNat) ∧
    (mwit.params.flashBase.toNat ≤ 0xDFFF ∧ 0xDFFF ≤ mwit.params.flashEnd.toNat) ∧
    ¬(wit.params.flashBase.toNat ≤ wit.pc.toNat ∧ wit.pc.toNat ≤ wit.params.flashEnd.toNat) ∧ (0x83 : Byte).getLsbD 0 = true := by decide
/-- Program RAM's last word; flash's bounds, from flash and from program RAM; neither. -/
theorem witness_ProgramMemoryReads : wit.params.wf ∧ wit.flashOp = none ∧ wit.addrl.getLsbD 0 = false ∧
    wit.params.ramByte ({ wit with addrh := 0x3F, addrl := 0xFC } : State).addr ∧ (0xFC : Byte).toNat < 0xFE ∧
    wit.params.flashByte ({ wit with addrx := 0x01 } : State).addr ∧
    (wit.params.flashBase.toNat ≤ 0x8000 ∧ 0x8000 ≤ wit.params.flashEnd.toNat) ∧
    ¬(wit.params.flashBase.toNat ≤ wit.pc.toNat ∧ wit.pc.toNat ≤ wit.params.flashEnd.toNat) ∧
    (¬wit.params.ramByte ({ wit with addrh := 0x40 } : State).addr ∧ ¬wit.params.flashByte ({ wit with addrh := 0x40 } : State).addr) ∧
    (¬wit.params.ramByte ({ wit with addrx := 0x02 } : State).addr ∧ ¬wit.params.flashByte ({ wit with addrx := 0x02 } : State).addr) :=
  ⟨Params.family_wf, by decide⟩
/-- A word that is not fetched next, two that are, flash, and neither. -/
theorem witness_ProgramMemoryWrites : wit.params.wf ∧ wit.flashOp = none ∧ wit.addrl.getLsbD 0 = false ∧
    wit.params.ramByte ({ wit with addrh := 0x02, addrl := 0x06 } : State).addr ∧
    BitVec.ofNat 16 (({ wit with addrh := 0x02, addrl := 0x06 } : State).addr.toNat / 2) ≠ wit.pc + 1 ∧
    BitVec.ofNat 16 (({ wit with addrh := 0x02, addrl := 0x06 } : State).addr.toNat / 2) ≠ wit.pc + 2 ∧
    BitVec.ofNat 16 (({ wit with addrh := 0x02, addrl := 0x02 } : State).addr.toNat / 2) = wit.pc + 1 ∧
    BitVec.ofNat 16 (({ wit with addrh := 0x02, addrl := 0x04 } : State).addr.toNat / 2) = wit.pc + 2 ∧
    wit.params.flashByte ({ wit with addrx := 0x01 } : State).addr ∧
    (¬wit.params.ramByte ({ wit with addrh := 0x40 } : State).addr ∧ ¬wit.params.flashByte ({ wit with addrh := 0x40 } : State).addr) :=
  ⟨Params.family_wf, by decide⟩
/-- Busy; an odd ADDR; ADDRL = 0xFE in program RAM and in flash. -/
theorem witness_ProgramAccessGuards :
    ({ wit with flashOp := some ⟨.erase, 0x018200, 0, 0⟩ } : State).flashOp.isSome = true ∧ wit.flashOp = none ∧
    (0x01 : Byte).getLsbD 0 = true ∧ wit.params.ramByte ({ wit with addrl := 0xFE } : State).addr ∧
    wit.params.flashByte ({ wit with addrx := 0x01, addrl := 0xFE } : State).addr ∧ BitVec.ofNat 16 (0xFE / 2) ≠ wit.pc + 1 ∧
    BitVec.ofNat 16 (0xFE / 2) ≠ wit.pc + 2 := by decide
theorem witness_ProgramRamWriteIsSeen : Memory.wf 0x00 wit.pram ∧ wit.params.ramByte (wit.addrx ++ wit.addrh ++ wit.addrl) ∧
    (∃ t, exec .iwrite wit = .next t) ∧ ∃ t, exec .iwritei wit = .next t :=
  ⟨by decide, by decide, exists_next (by decide), exists_next (by decide)⟩
/-- An operation due now, of each kind; for a write, with the word erased. -/
theorem witness_ControllerCompletes (k : FlashKind) :
    let op : FlashOp := ⟨k, 0x018200, 0x1234, 0⟩
    let s : State := { wit with flashOp := some op }
    Memory.wf 0xFF s.flash ∧ s.flashOp = some op ∧ op.wait = 0 ∧ s.flashWord (op.addr.extractLsb' 1 16) = s.params.erasedWord := by
  cases k <;> decide
theorem witness_PendingOperationCountsDown :
    let op : FlashOp := ⟨.fread, 0x018200, 0, 1⟩
    let s : State := { wit with flashOp := some op }
    s.resetRequest = none ∧ s.flashOp = some op ∧ op.wait = 0 + 1 ∧ ∃ t, step s = .next t :=
  ⟨rfl, rfl, rfl, exists_next (by decide)⟩
/-- Instructions that store and one that does not, each with a next state. -/
theorem witness_DataMemoryFrame : Memory.wf 0x00 wit.data ∧ (∃ t, exec (.movFrW .indirect) wit = .next t) ∧ ∃ t, exec .nop wit = .next t :=
  ⟨by decide, exists_next (by decide), exists_next (by decide)⟩
theorem witness_HiddenStateFrame : (∃ t, exec (.call 0) wit = .next t) ∧ (∃ t, exec (.testFr .indirect) wit = .next t) ∧
    storeAddress (.testFr .indirect) wit = some 0x080 ∧ wit.params.addrXcfg = 0x01C ∧ wit.params.addrFcfg = 0x01A ∧ wit.params.addrTctrl = 0x01B :=
  ⟨exists_next (by decide), exists_next (by decide), by decide, by decide, by decide, by decide⟩
theorem witness_StatusFrame : (∃ t, exec (.movFrW (.direct 0x80)) wit = .next t) ∧ writesStatus (.movFrW (.direct 0x80)) = false ∧
    storeAddress (.movFrW (.direct 0x80)) wit ≠ some 0x00B := ⟨exists_next (by decide), by decide, by decide⟩

end Sys2Proof.Tests
end

section
/-! The machine's invariant and the frame of the hidden state: what the instructions that reach beyond the file registers can do, where
every instruction may store, and from these the obligations O59, O6 and O5. -/

namespace Sys2Proof.Machine

/-! ### The controller's operations -/

/-- In `t` an operation that the invariant admits was issued from `s`; a read leaves free values in DATA. -/
def Issues (s t : State) : Prop :=
  ∃ op hi lo, op.legal s.params = true ∧ t = { s.advance with flashOp := some op, datah := hi, datal := lo }

/-- In `t` one word of program RAM was written from `s`; the form that counts moves ADDRL on. -/
def WritesRam (s t : State) : Prop :=
  ∃ wa v lo, s.params.inPram wa = true ∧
    t = { s.advance with pram := wordWrite Layout.unlistedRam s.pram wa v, addrl := lo }

/-- In `t` a word was read into DATA from `s`; the form that counts moves ADDRL on. -/
def ReadsWord (s t : State) : Prop :=
  ∃ v lo, t = { s.advance.setData v with addrl := lo }

/-- Issuing a write or an erase that is legal whatever its latency. -/
theorem issue_issues {kind : FlashKind} {a : ByteAddress} {d : Word} {s : State}
    (h : ∀ n, FlashOp.legal s.params { kind := kind, addr := a, data := d, wait := n } = true) :
    Issues s (issue kind a d s.advance) :=
  ⟨_, s.datah, s.datal, h _, rfl⟩

/-- Issuing a read that is legal whatever its latency. -/
theorem issueRead_issues {kind : FlashKind} {a : ByteAddress} {s : State}
    (h : ∀ n, FlashOp.legal s.params { kind := kind, addr := a, data := 0, wait := n } = true) :
    Issues s (issueRead kind a s.advance) :=
  ⟨_, _, _, h _, rfl⟩

/-- A program-RAM write at an address of program RAM. -/
theorem pmemWrite_inPram {s : State} {wa v : Word} (h : s.params.inPram wa = true) :
    pmemWrite s wa v = { s with pram := wordWrite Layout.unlistedRam s.pram wa v } := if_pos h

/-- A byte address by its three bytes: the low one holds bits 7:0. -/
theorem getLsbD_byteAddress (x y z : Byte) (i : Nat) : BitVec.getLsbD (x ++ y ++ z : ByteAddress) i =
    if i < 8 then z.getLsbD i else (x ++ y).getLsbD (i - 8) := BitVec.getLsbD_append

/-- ADDR is even where ADDRL is (20_memory.md R80). -/
theorem addr_even {s : State} (h : s.addrl.getLsbD 0 = false) : s.addr.extractLsb' 0 1 = 0 := by
  apply BitVec.eq_of_getLsbD_eq
  intro i hi
  obtain rfl : i = 0 := by omega
  rw [BitVec.getLsbD_extractLsb', State.addr, getLsbD_byteAddress]
  simpa using h

/-- The block of `ferase` is 512-byte aligned where ADDRH is even (46_system_control.md R254). -/
theorem eraseBlock_aligned {s : State} (h : s.addrh.getLsbD 0 = false) : (eraseBlock s).extractLsb' 0 9 = 0 := by
  apply BitVec.eq_of_getLsbD_eq
  intro i hi
  rw [BitVec.getLsbD_extractLsb', eraseBlock, getLsbD_byteAddress]
  rcases Nat.lt_succ_iff_lt_or_eq.mp hi with hlt | rfl
  · simp [hlt]
  · rw [BitVec.getLsbD_append]
    simpa using h

/-- An ADDR value selects program RAM only where its word address lies there. -/
theorem inPram_of_regionOf {p : Params} {a : ByteAddress} (h : p.regionOf a = .programRam) :
    p.inPram (addrWord a) = true := by
  unfold Params.regionOf at h
  grind

/-- An ADDR value selects flash only where its word address lies there. -/
theorem addrInFlash_of_regionOf {p : Params} {a : ByteAddress} (h : p.regionOf a = .flash) :
    p.addrInFlash a = true := by
  unfold Params.regionOf at h
  unfold Params.addrInFlash
  grind

/-- A program-memory access that is not stopped has an even ADDR. -/
theorem addr_even_of_accessGuard {reads : Bool} {s : State} (h : accessGuard reads s = none) :
    s.addr.extractLsb' 0 1 = 0 := by
  refine addr_even ?_
  unfold accessGuard at h
  grind

/-! ### What each instruction that reaches beyond the file registers can do -/

/-- The common form of `ferase`, `fread` and `fwrite`: the guard, the check of ADDR's low bits, then the issue inside flash alone
(46_system_control.md R253). -/
def guardedIssue (odd inFlash : Bool) (e : Fault) (u s : State) : Host.Outcome State Fault Refusal :=
  match flashGuard s with
  | some g => .fault g
  | none => if odd then .fault e else if inFlash then .next u else .next s.advance

/-- `ferase` in that form (46_system_control.md R254). -/
theorem execFerase_eq (s : State) : execFerase s = guardedIssue (s.addrh.getLsbD 0) (s.params.addrInFlash (eraseBlock s))
    .eraseBlockUnaligned (issue .erase (eraseBlock s) 0 s.advance) s := rfl

/-- `fread` in that form (46_system_control.md R255). -/
theorem execFread_eq (s : State) : execFread s = guardedIssue (s.addrl.getLsbD 0) (s.params.addrInFlash s.addr)
    .oddAddr (issueRead .fread s.addr s.advance) s := rfl

/-- `fwrite` in that form (46_system_control.md R256). -/
theorem execFwrite_eq (s : State) : execFwrite s = guardedIssue (s.addrl.getLsbD 0) (s.params.addrInFlash s.addr)
    .oddAddr (issue .fwrite s.addr s.dataWord s.advance) s := rfl

/-- A flash instruction that is not stopped does nothing, or issues its operation with ADDR aligned and in flash. -/
theorem guardedIssue_cases {odd inFlash : Bool} {e : Fault} {u s t : State} (h : guardedIssue odd inFlash e u s = .next t) :
    t = s.advance ∨ (odd = false ∧ inFlash = true ∧ t = u) := by
  unfold guardedIssue at h
  split at h
  · cases h
  · cases odd with
    | true => cases h
    | false =>
      cases inFlash with
      | true => cases h; exact .inr ⟨rfl, rfl, rfl⟩
      | false => cases h; exact .inl rfl

/-- `ferase` does nothing or issues an erase. -/
theorem execFerase_cases {s t : State} (h : execFerase s = .next t) : t = s.advance ∨ Issues s t := by
  rw [execFerase_eq] at h
  obtain rfl | ⟨heven, hf, rfl⟩ := guardedIssue_cases h
  · exact .inl rfl
  · exact .inr (issue_issues fun _ => by simp [FlashOp.legal, hf, eraseBlock_aligned heven])

/-- `fread` does nothing or issues a read. -/
theorem execFread_cases {s t : State} (h : execFread s = .next t) : t = s.advance ∨ Issues s t := by
  rw [execFread_eq] at h
  obtain rfl | ⟨heven, hf, rfl⟩ := guardedIssue_cases h
  · exact .inl rfl
  · exact .inr (issueRead_issues fun _ => by simp [FlashOp.legal, hf, addr_even heven])

/-- `fwrite` does nothing or issues a write. -/
theorem execFwrite_cases {s t : State} (h : execFwrite s = .next t) : t = s.advance ∨ Issues s t := by
  rw [execFwrite_eq] at h
  obtain rfl | ⟨heven, hf, rfl⟩ := guardedIssue_cases h
  · exact .inl rfl
  · exact .inr (issue_issues fun _ => by simp [FlashOp.legal, hf, addr_even heven])

/-- `ferase`, `fread` and `fwrite` do nothing or issue their operation. -/
theorem exec_flashInstruction_cases {i : Instr} {s t : State} (hi : i ∈ [.ferase, .fread, .fwrite]) (h : exec i s = .next t) :
    t = s.advance ∨ Issues s t := by
  simp only [List.mem_cons, List.not_mem_nil, or_false] at hi
  obtain rfl | rfl | rfl := hi
  · exact execFerase_cases h
  · exact execFread_cases h
  · exact execFwrite_cases h

/-- A read of flash is made at once, or issued. -/
theorem readFlashWord_cases {s : State} (hr : s.params.regionOf s.addr = .flash) (he : s.addr.extractLsb' 0 1 = 0) :
    ReadsWord s (readFlashWord s) ∨ Issues s (readFlashWord s) := by
  unfold readFlashWord
  split
  · exact .inl ⟨_, s.addrl, rfl⟩
  · refine .inr (issueRead_issues fun _ => ?_)
    simp [FlashOp.legal, addrInFlash_of_regionOf hr, he]

/-- `iread` reads a word at once, or issues a read. -/
theorem execIread_cases {s t : State} (h : execIread s = .next t) : ReadsWord s t ∨ Issues s t := by
  unfold execIread at h
  cases hg : accessGuard true s with
  | some e => simp [hg] at h
  | none =>
    simp only [hg] at h
    split at h
    · cases h; exact .inl ⟨_, s.addrl, rfl⟩
    · rename_i hr
      cases h; exact readFlashWord_cases hr (addr_even_of_accessGuard hg)
    · rename_i hr
      cases h
      refine .inr (issueRead_issues fun _ => ?_)
      simp [FlashOp.legal, hr]
    · cases h

/-- `ireadi` does what `iread` does on chip, and counts ADDRL on. -/
theorem execIreadi_cases {s t : State} (h : execIreadi s = .next t) :
    ∃ u lo, (ReadsWord s u ∨ Issues s u) ∧ t = { u with addrl := lo } := by
  unfold execIreadi at h
  cases hg : accessGuard true s with
  | some e => simp [hg] at h
  | none =>
    simp only [hg] at h
    split at h
    · obtain ⟨-, rfl⟩ := stepAddrl_eq_next.mp h
      exact ⟨_, _, .inl ⟨_, s.addrl, rfl⟩, rfl⟩
    · rename_i hr
      obtain ⟨-, rfl⟩ := stepAddrl_eq_next.mp h
      exact ⟨_, _, readFlashWord_cases hr (addr_even_of_accessGuard hg), rfl⟩
    · cases h
    · cases h

/-- `iwrite` does nothing, writes a word of program RAM, or issues a write of external RAM. -/
theorem execIwrite_cases {s t : State} (h : execIwrite s = .next t) : t = s.advance ∨ WritesRam s t ∨ Issues s t := by
  unfold execIwrite at h
  cases hg : accessGuard false s with
  | some e => simp [hg] at h
  | none =>
    simp only [hg] at h
    split at h
    · rename_i hr
      split at h
      · cases h
      · cases h
        exact .inr (.inl ⟨_, _, s.addrl, inPram_of_regionOf hr, pmemWrite_inPram (inPram_of_regionOf hr)⟩)
    · rename_i hr
      split at h
      · rename_i hx
        cases h
        refine .inr (.inr (issue_issues fun _ => ?_))
        simp [FlashOp.legal, hr, hx]
      · cases h; exact .inl rfl
    · cases h; exact .inl rfl
    · cases h; exact .inl rfl

/-- `iwritei` writes a word of program RAM and counts ADDRL on. -/
theorem execIwritei_cases {s t : State} (h : execIwritei s = .next t) : WritesRam s t := by
  unfold execIwritei at h
  cases hg : accessGuard false s with
  | some e => simp [hg] at h
  | none =>
    simp only [hg] at h
    split at h
    · rename_i hr
      split at h
      · cases h
      · rw [pmemWrite_inPram (s := s.advance) (inPram_of_regionOf hr)] at h
        obtain ⟨-, rfl⟩ := stepAddrl_eq_next.mp h
        exact ⟨_, _, _, inPram_of_regionOf hr, rfl⟩
    · cases h
    · cases h
    · cases h

/-- `test fr` stores a result, and may clear Timer 0's prescaler. -/
theorem execTestFr_cases {f : FileOperand} {s t : State} (h : execTestFr f s = .next t) :
    ∃ a r u p, effectiveAddress f s = .ok a ∧ resultToFile a r s = .ok u ∧ t = { u with t0Prescaler := p } := by
  unfold execTestFr at h
  simp only [settle_eq_next, bind_eq_ok] at h
  obtain ⟨a, ha, v, -, u, hu, h⟩ := h
  refine ⟨a, _, u, if a = s.params.addrT0tmr then 0 else u.t0Prescaler, ha, hu, ?_⟩
  cases h
  split <;> rfl

/-- `call` pushes the return address where there is room. -/
theorem execCall_cases {k : BitVec 13} {s t : State} (h : execCall k s = .next t) :
    s.callStack.length < Layout.callStackDepth ∧
      t = { s with callStack := (s.pc + 1) :: s.callStack, pc := jumpTarget k s } := by
  unfold execCall at h
  simp only [settle_eq_next, bind_eq_ok] at h
  obtain ⟨u, hu, h⟩ := h
  obtain ⟨hroom, rfl⟩ := callPush_eq_ok.mp hu
  cases h
  exact ⟨hroom, rfl⟩

/-- `int` is no operation, or enters the interrupt routine. -/
theorem execInt_cases {s t : State} (h : execInt s = .next t) :
    t = s.advance ∨ interruptEntry (s.pc + 1) s = .ok t := by
  unfold execInt at h
  split at h
  · exact .inr (settle_eq_next.mp h)
  · cases h; exact .inl rfl

/-- `int` leaves data memory and INT_EN. -/
theorem execInt_file {s t : State} (h : execInt s = .next t) : t.data = s.data ∧ t.intEn = s.intEn := by
  obtain rfl | h := execInt_cases h
  · exact ⟨rfl, rfl⟩
  · obtain ⟨-, rfl⟩ := interruptEntry_eq_ok.mp h
    exact ⟨rfl, rfl⟩

/-- `reti` leaves data memory and INT_EN. -/
theorem execReti_file {n : BitVec 3} {s t : State} (h : execReti n s = .next t) : t.data = s.data ∧ t.intEn = s.intEn := by
  obtain ⟨-, rfl⟩ := interruptReturn_eq_ok.mp (settle_eq_next.mp h)
  rw [retiOptions_eq]
  exact ⟨rfl, rfl⟩

/-! ### Where an instruction may store -/

/-- The two states agree on data memory, GIE and INT_EN, and on the parameters that say where those bits lie. -/
structure SameFile (s t : State) : Prop where
  params : t.params = s.params
  data : t.data = s.data
  gie : t.gie = s.gie
  intEn : t.intEn = s.intEn

/-- Between `s` and `t` at most one file-register write changes data memory, GIE and INT_EN, and it is at the address `o`. -/
def StoresOnce (o : Option Word) (s t : State) : Prop :=
  SameFile s t ∨ ∃ a v u u', o = some a ∧ SameFile s u ∧ writeFile a v u = .ok u' ∧ SameFile u' t

/-- The effective address, where the operand has one. -/
theorem operandAddress_of_ok {f : FileOperand} {s : State} {a : Word} (h : effectiveAddress f s = .ok a) :
    operandAddress f s = some a := by
  simp [operandAddress, h]

/-- One write at the address, with nothing of the file changed before it. -/
theorem StoresOnce.write {o : Option Word} {a : Word} {v : Byte} {s u t : State} (ho : o = some a)
    (h : writeFile a v u = .ok t) (h0 : SameFile s u) : StoresOnce o s t :=
  .inr ⟨a, v, u, t, ho, h0, h, ⟨rfl, rfl, rfl, rfl⟩⟩

/-- What happens after the store keeps the file. -/
theorem StoresOnce.andThen {o : Option Word} {s t u : State} (h : StoresOnce o s t) (h' : SameFile t u) : StoresOnce o s u := by
  have trans {x : State} (hx : SameFile x t) : SameFile x u :=
    ⟨h'.params.trans hx.params, h'.data.trans hx.data, h'.gie.trans hx.gie, h'.intEn.trans hx.intEn⟩
  obtain hs | ⟨a, v, w, w', ho, hw, hv, ht⟩ := h
  · exact .inl (trans hs)
  · exact .inr ⟨a, v, w, w', ho, hw, hv, trans ht⟩

/-- A skip moves pc alone. -/
theorem SameFile.of_skipWhen {c : Bool} {s t u : State} (h : skipWhen c s t = .ok u) : SameFile t u := by
  obtain ⟨-, rfl⟩ | ⟨-, p, -, rfl⟩ := skipWhen_eq_ok.mp h <;> exact ⟨rfl, rfl, rfl, rfl⟩

/-- A result goes to a file register by one write. -/
theorem StoresOnce.result {o : Option Word} {a : Word} {r : AluResult} {s t : State} (ho : o = some a)
    (h : resultToFile a r s = .ok t) : StoresOnce o s t :=
  .write ho (resultToFile_eq_ok.mp h).2 ⟨rfl, rfl, rfl, rfl⟩

/-- A read-modify-write stores at its operand's address. -/
theorem StoresOnce.update {f : FileOperand} {op : Byte → AluResult} {s t : State} (h : updateFile f op s = .ok t) :
    StoresOnce (operandAddress f s) s t := by
  obtain ⟨a, v, ha, -, -, h⟩ := updateFile_eq_ok.mp h
  exact StoresOnce.write (operandAddress_of_ok ha) h ⟨rfl, rfl, rfl, rfl⟩

/-- A count-and-skip form stores at its operand's address. -/
theorem StoresOnce.countInFile {f : FileOperand} {count : Byte → Byte} {cond : Byte → Bool} {s t : State}
    (h : countInFile f count cond s = .ok t) : StoresOnce (operandAddress f s) s t := by
  obtain ⟨a, v, u, ha, -, -, hu, hs⟩ := countInFile_eq_ok.mp h
  exact (StoresOnce.write (s := s) (operandAddress_of_ok ha) hu ⟨rfl, rfl, rfl, rfl⟩).andThen (.of_skipWhen hs)

/-- A push stores at the old SP. -/
theorem StoresOnce.push {v : Byte} {s t : State} (h : pushByte v s = .ok t) : StoresOnce (some s.sp) s t := by
  obtain ⟨u, hu, rfl⟩ := pushByte_eq_ok.mp h
  exact (StoresOnce.write (s := s) rfl hu ⟨rfl, rfl, rfl, rfl⟩).andThen ⟨rfl, rfl, rfl, rfl⟩

/-- A result into W stores nothing. -/
theorem SameFile.of_fileToW {f : FileOperand} {op : Byte → AluResult} {s t : State} (h : fileToW f op s = .ok t) : SameFile s t := by
  obtain ⟨v, -, rfl⟩ := fileToW_eq_ok.mp h
  exact ⟨rfl, rfl, rfl, rfl⟩

/-- A count-and-skip form into W stores nothing. -/
theorem SameFile.of_countToW {f : FileOperand} {count : Byte → Byte} {cond : Byte → Bool} {s t : State}
    (h : countToW f count cond s = .ok t) : SameFile s t := by
  obtain ⟨v, -, h⟩ := countToW_eq_ok.mp h
  exact { SameFile.of_skipWhen h with }

/-- A test and skip stores nothing. -/
theorem SameFile.of_testAndSkip {f : FileOperand} {cond : Byte → Bool} {s t : State}
    (h : testAndSkip f cond s = .ok t) : SameFile s t := by
  obtain ⟨v, -, h⟩ := testAndSkip_eq_ok.mp h
  exact { SameFile.of_skipWhen h with }

/-- A multiply stores nothing. -/
theorem SameFile.of_multiplyFile {f : FileOperand} {p : Byte → Byte → Word} {s t : State}
    (h : multiplyFile f p s = .ok t) : SameFile s t := by
  obtain ⟨v, -, rfl⟩ := multiplyFile_eq_ok.mp h
  exact ⟨rfl, rfl, rfl, rfl⟩

/-- A return stores nothing. -/
theorem SameFile.of_returnTo {b : Bool} {s t : State} (h : returnTo b s = .ok t) : SameFile s t := by
  obtain ⟨ra, rest, -, rfl⟩ := returnTo_eq_ok.mp h
  exact ⟨rfl, rfl, rfl, rfl⟩

/-- Issuing an operation stores nothing. -/
theorem SameFile.of_issues {s t : State} (h : Issues s t) : SameFile s t := by
  obtain ⟨op, hi, lo, -, rfl⟩ := h
  exact ⟨rfl, rfl, rfl, rfl⟩

/-- A program-memory read stores nothing. -/
theorem SameFile.of_readsWord {s t : State} (h : ReadsWord s t) : SameFile s t := by
  obtain ⟨v, lo, rfl⟩ := h
  exact ⟨rfl, rfl, rfl, rfl⟩

/-- A program-memory write stores nothing in data memory. -/
theorem SameFile.of_writesRam {s t : State} (h : WritesRam s t) : SameFile s t := by
  obtain ⟨wa, v, lo, -, rfl⟩ := h
  exact ⟨rfl, rfl, rfl, rfl⟩

/-- A form that answers one state without stopping. -/
theorem SameFile.of_next {s t u : State} (h : (Host.Outcome.next u : Host.Outcome State Fault Refusal) = .next t)
    (hu : SameFile s u) : SameFile s t := by
  cases h
  exact hu

/-- Every instruction but `int` and `reti`, which write GIE as their own effect, stores at most once, at its `storeAddress`. -/
theorem exec_storesOnce {i : Instr} {s t : State} (hint : i ≠ .int) (hreti : ∀ n, i ≠ .reti n) (h : exec i s = .next t) :
    StoresOnce (storeAddress i s) s t := by
  cases i with
  | int => exact absurd rfl hint
  | reti n => exact absurd rfl (hreti n)
  | subFrW f | decFr f | orFrW f | andFrW f | xorFrW f | notFr f | incFr f | rrFr f | rlFr f | swapFr f | subcFrW f
  | addcFrW f | clrbFrBit f b | setbFrBit f b => exact .update (settle_eq_next.mp h)
  | decszFr f | incszFr f | decsnzFr f | incsnzFr f => exact .countInFile (settle_eq_next.mp h)
  | movFrW f =>
    obtain ⟨a, ha, h⟩ := bind_eq_ok.mp (settle_eq_next.mp h)
    exact StoresOnce.write (operandAddress_of_ok ha) h ⟨rfl, rfl, rfl, rfl⟩
  | clrFr f =>
    obtain ⟨a, ha, h⟩ := bind_eq_ok.mp (settle_eq_next.mp h)
    exact StoresOnce.result (operandAddress_of_ok ha) h
  | addFrW f =>
    obtain ⟨a, ha, h⟩ := bind_eq_ok.mp (settle_eq_next.mp h)
    obtain ⟨v, -, h⟩ := bind_eq_ok.mp h
    split at h
    · cases h
    · exact StoresOnce.result (operandAddress_of_ok ha) h
  | testFr f =>
    obtain ⟨a, r, u, p, ha, hu, rfl⟩ := execTestFr_cases h
    exact (StoresOnce.result (operandAddress_of_ok ha) hu).andThen ⟨rfl, rfl, rfl, rfl⟩
  | popFr f =>
    obtain ⟨a, ha, h⟩ := bind_eq_ok.mp (settle_eq_next.mp h)
    obtain ⟨-, ha, -, -⟩ := popAddress_eq_ok.mp ha
    obtain ⟨v, -, h⟩ := popByte_eq_ok.mp h
    exact StoresOnce.write (operandAddress_of_ok ha) h ⟨rfl, rfl, rfl, rfl⟩
  | pushFr f =>
    obtain ⟨v, -, h⟩ := bind_eq_ok.mp (settle_eq_next.mp h)
    exact .push h
  | pushLit k => exact .push (settle_eq_next.mp h)
  | subWFr f | decWFr f | orWFr f | andWFr f | xorWFr f | addWFr f | movWFr f | notWFr f | incWFr f | rrWFr f | rlWFr f
  | swapWFr f | subcWFr f | addcWFr f => exact .inl (.of_fileToW (settle_eq_next.mp h))
  | decszWFr f | incszWFr f | decsnzWFr f | incsnzWFr f => exact .inl (.of_countToW (settle_eq_next.mp h))
  | csneWFr f | cseWFr f | snbFrBit f b | sbFrBit f b => exact .inl (.of_testAndSkip (settle_eq_next.mp h))
  | csneWLit k | cseWLit k => exact .inl { SameFile.of_skipWhen (settle_eq_next.mp h) with }
  | muluWFr f | mulsWFr f => exact .inl (.of_multiplyFile (settle_eq_next.mp h))
  | cmpWFr f =>
    obtain ⟨v, -, h⟩ := bind_eq_ok.mp (settle_eq_next.mp h)
    cases h
    exact .inl ⟨rfl, rfl, rfl, rfl⟩
  | loadh k | loadl k | muluWLit k | mulsWLit k | cmpWLit k | subWLit k | addWLit k | movWLit k | orWLit k | andWLit k
  | xorWLit k | jmp k | nop | brk | brkx | cwdt | page n | speed n => exact .inl (.of_next h ⟨rfl, rfl, rfl, rfl⟩)
  | ret | retnp => exact .inl (.of_returnTo (settle_eq_next.mp h))
  | retw k => exact .inl { SameFile.of_returnTo (settle_eq_next.mp h) with }
  | call k =>
    obtain ⟨-, rfl⟩ := execCall_cases h
    exact .inl ⟨rfl, rfl, rfl, rfl⟩
  | ferase | fread | fwrite =>
    obtain rfl | h := exec_flashInstruction_cases (by simp) h
    · exact .inl ⟨rfl, rfl, rfl, rfl⟩
    · exact .inl (.of_issues h)
  | iread => exact .inl ((execIread_cases h).elim .of_readsWord .of_issues)
  | ireadi =>
    obtain ⟨u, lo, hu, rfl⟩ := execIreadi_cases h
    exact .inl { hu.elim SameFile.of_readsWord SameFile.of_issues with }
  | iwrite =>
    obtain rfl | h | h := execIwrite_cases h
    · exact .inl ⟨rfl, rfl, rfl, rfl⟩
    · exact .inl (.of_writesRam h)
    · exact .inl (.of_issues h)
  | iwritei => exact .inl (.of_writesRam (execIwritei_cases h))

/-- A file-register write changes GIE and INT_EN only at the address where each lies. -/
theorem writeFile_controlBits {a : Word} {v : Byte} {s t : State} (h : writeFile a v s = .ok t) :
    (a ≠ s.params.gie.address → t.gie = s.gie) ∧ (a ≠ s.params.intEn.address → t.intEn = s.intEn) := by
  obtain ⟨-, -, ⟨-, rfl⟩ | ⟨-, u, hu, rfl⟩⟩ := writeFile_cases h
  · exact ⟨fun _ => rfl, fun _ => rfl⟩
  · rw [writeRegister_frame hu]
    exact ⟨fun ha => BitPlace.take_other (Ne.symm ha) _ _, fun ha => BitPlace.take_other (Ne.symm ha) _ _⟩

/-- GIE changes only by a store to its register. -/
theorem StoresOnce.gie {o : Option Word} {s t : State} (h : StoresOnce o s t) (ho : o ≠ some s.params.gie.address) :
    t.gie = s.gie := by
  obtain hs | ⟨a, v, u, u', rfl, hu, hw, ht⟩ := h
  · exact hs.gie
  · have ha : a ≠ u.params.gie.address := fun e => ho (by rw [e, hu.params])
    rw [ht.gie, (writeFile_controlBits hw).1 ha, hu.gie]

/-- INT_EN changes only by a store to its register. -/
theorem StoresOnce.intEn {o : Option Word} {s t : State} (h : StoresOnce o s t) (ho : o ≠ some s.params.intEn.address) :
    t.intEn = s.intEn := by
  obtain hs | ⟨a, v, u, u', rfl, hu, hw, ht⟩ := h
  · exact hs.intEn
  · have ha : a ≠ u.params.intEn.address := fun e => ho (by rw [e, hu.params])
    rw [ht.intEn, (writeFile_controlBits hw).2 ha, hu.intEn]

/-- A store keeps data memory in canonical form and inside its bounds. -/
theorem StoresOnce.data_wf {o : Option Word} {s t : State} (h : StoresOnce o s t)
    (hw : Memory.wf Layout.unlistedRam s.data) (hi : Memory.within Layout.dataBase Layout.dataEnd s.data) :
    Memory.wf Layout.unlistedRam t.data ∧ Memory.within Layout.dataBase Layout.dataEnd t.data := by
  obtain hs | ⟨a, v, u, u', -, hu, hv, ht⟩ := h
  · rw [hs.data]; exact ⟨hw, hi⟩
  · rw [ht.data]
    rw [← hu.data] at hw hi
    exact writeFile_data_wf hv hw hi

/-- `int` and `reti` leave data memory and INT_EN; every other instruction stores at most once, at its `storeAddress`. -/
theorem exec_data_intEn_cases {i : Instr} {s t : State} (h : exec i s = .next t) :
    (t.data = s.data ∧ t.intEn = s.intEn) ∨ StoresOnce (storeAddress i s) s t := by
  by_cases hint : i = .int
  · subst hint; exact .inl (execInt_file h)
  by_cases hreti : ∃ n, i = .reti n
  · obtain ⟨n, rfl⟩ := hreti; exact .inl (execReti_file h)
  exact .inr (exec_storesOnce hint (fun n e => hreti ⟨n, e⟩) h)

/-! ### The frame of the hidden state -/

/-- What an instruction leaves of the state that no file register reaches; GIE and INT_EN have lemmas of their own. A field that is
not given is one that nothing in the state at hand has changed. -/
structure HiddenFrame (i : Instr) (s t : State) : Prop where
  params : t.params = s.params := by rfl
  flash : t.flash = s.flash := by rfl
  irq : t.irq = s.irq := by rfl
  resetRequest : t.resetRequest = s.resetRequest := by rfl
  time : t.time = s.time := by rfl
  xcfg : t.xcfg = s.xcfg := by rfl
  fcfg : t.fcfg = s.fcfg := by rfl
  tctrl : t.tctrl = s.tctrl := by rfl
  pram : i ∉ [.iwrite, .iwritei] → t.pram = s.pram := by exact fun _ => rfl
  callStack : i ∉ [.ret, .retnp] → (∀ k, i ≠ .retw k) → (∀ k, i ≠ .call k) → t.callStack = s.callStack := by
    exact fun _ _ _ => rfl
  shadow : i ≠ .int → t.shadow = s.shadow := by exact fun _ => rfl
  inIsr : i ≠ .int → (∀ n, i ≠ .reti n) → t.inIsr = s.inIsr := by exact fun _ _ => rfl
  breakMode : i ∉ [.brk, .brkx] → t.breakMode = s.breakMode := by exact fun _ => rfl
  flashOp : i ∉ [.ferase, .fread, .fwrite, .iread, .ireadi, .iwrite] → t.flashOp = s.flashOp := by exact fun _ => rfl
  watchdog : i ≠ .cwdt → t.wdtCounter = s.wdtCounter ∧ t.wdtPrescaler = s.wdtPrescaler := by exact fun _ => ⟨rfl, rfl⟩
  t0Prescaler : (∀ f, i ≠ .testFr f) → t.t0Prescaler = s.t0Prescaler := by exact fun _ => rfl

/-- An instruction that works on the file registers alone. -/
theorem HiddenFrame.of_fileOnly {i : Instr} {s t : State} (h : FileOnly s t) : HiddenFrame i s t := by
  rw [h]
  exact {}

/-- A flash or program-memory instruction that issued its operation. -/
theorem HiddenFrame.of_issues {i : Instr} {s t : State} (hi : i ∈ [.ferase, .fread, .fwrite, .iread, .ireadi, .iwrite])
    (h : Issues s t) : HiddenFrame i s t := by
  obtain ⟨op, dh, dl, -, rfl⟩ := h
  exact { flashOp := fun hn => absurd hi hn }

/-- A program-memory write. -/
theorem HiddenFrame.of_writesRam {i : Instr} {s t : State} (hi : i ∈ [.iwrite, .iwritei]) (h : WritesRam s t) :
    HiddenFrame i s t := by
  obtain ⟨wa, v, lo, -, rfl⟩ := h
  exact { pram := fun hn => absurd hi hn }

/-- A program-memory read. -/
theorem HiddenFrame.of_readsWord {i : Instr} {s t : State} (h : ReadsWord s t) : HiddenFrame i s t := by
  obtain ⟨v, lo, rfl⟩ := h
  exact {}

/-- Every instruction keeps the hidden state but for the items that the rules let it change. -/
theorem exec_hiddenFrame {i : Instr} {s t : State} (h : exec i s = .next t) : HiddenFrame i s t := by
  cases i with
  | testFr f =>
    obtain ⟨a, r, u, p, -, hu, rfl⟩ := execTestFr_cases h
    rw [FileOnly.result hu]
    exact { t0Prescaler := fun hn => absurd rfl (hn f) }
  | call k =>
    obtain ⟨-, rfl⟩ := execCall_cases h
    exact { callStack := fun _ _ hn => absurd rfl (hn k) }
  | retw k =>
    obtain ⟨ra, rest, -, rfl⟩ := returnTo_eq_ok.mp (settle_eq_next.mp h)
    exact { callStack := fun _ hn _ => absurd rfl (hn k) }
  | ret | retnp =>
    obtain ⟨ra, rest, -, rfl⟩ := returnTo_eq_ok.mp (settle_eq_next.mp h)
    exact { callStack := fun hn _ _ => absurd (by simp) hn }
  | brk | brkx =>
    cases h
    exact { breakMode := fun hn => absurd (by simp) hn }
  | cwdt =>
    cases h
    exact { watchdog := fun hn => absurd rfl hn }
  | int =>
    obtain rfl | h := execInt_cases h
    · exact {}
    · obtain ⟨-, rfl⟩ := interruptEntry_eq_ok.mp h
      exact { shadow := fun hn => absurd rfl hn, inIsr := fun hn _ => absurd rfl hn }
  | reti n =>
    obtain ⟨-, rfl⟩ := interruptReturn_eq_ok.mp (settle_eq_next.mp h)
    rw [retiOptions_eq]
    exact { inIsr := fun _ hn => absurd rfl (hn n) }
  | ferase | fread | fwrite =>
    obtain rfl | h := exec_flashInstruction_cases (by simp) h
    · exact {}
    · exact .of_issues (by simp) h
  | iread => exact (execIread_cases h).elim .of_readsWord (.of_issues (by simp))
  | ireadi =>
    obtain ⟨u, lo, hu, rfl⟩ := execIreadi_cases h
    have hf : HiddenFrame .ireadi s u := hu.elim .of_readsWord (.of_issues (by simp))
    exact { hf with }
  | iwrite =>
    obtain rfl | h | h := execIwrite_cases h
    · exact {}
    · exact .of_writesRam (by simp) h
    · exact .of_issues (by simp) h
  | iwritei => exact .of_writesRam (by simp) (execIwritei_cases h)
  | _ => exact .of_fileOnly (exec_fileOnly rfl h)

/-- GIE changes only by a store to its register, and by `int` and `reti` (60_exceptions.md R282). -/
theorem exec_gie {i : Instr} {s t : State} (hint : i ≠ .int) (hreti : ∀ n, i ≠ .reti n)
    (ho : storeAddress i s ≠ some s.params.gie.address) (h : exec i s = .next t) : t.gie = s.gie :=
  (exec_storesOnce hint hreti h).gie ho

/-- INT_EN changes only by a store to its register (60_exceptions.md R282). -/
theorem exec_intEn {i : Instr} {s t : State} (ho : storeAddress i s ≠ some s.params.intEn.address) (h : exec i s = .next t) :
    t.intEn = s.intEn :=
  (exec_data_intEn_cases h).elim And.right (·.intEn ho)

/-- Settles O59: the frame over all instructions, with GIE and INT_EN by the one store an instruction may make. -/
theorem hiddenStateFrame : Obligations.HiddenStateFrame := by
  intro i s t h
  have f := exec_hiddenFrame h
  exact ⟨f.params, f.flash, f.irq, f.resetRequest, f.time, f.xcfg, f.fcfg, f.tctrl,
    fun hint hreti ho => exec_gie hint hreti ho h, fun ho => exec_intEn ho h,
    f.pram, f.callStack, f.shadow, f.inIsr, f.breakMode, f.flashOp, f.watchdog, f.t0Prescaler⟩

/-! ### The invariant through an instruction -/

/-- An instruction keeps data memory in canonical form and inside its bounds (10_state.md R40). -/
theorem exec_data_wf {i : Instr} {s t : State} (h : exec i s = .next t) (hs : s.Inv) :
    Memory.wf Layout.unlistedRam t.data ∧ Memory.within Layout.dataBase Layout.dataEnd t.data := by
  obtain ⟨hd, -⟩ | ho := exec_data_intEn_cases h
  · rw [hd]; exact ⟨hs.dataWf, hs.dataWithin⟩
  · exact ho.data_wf hs.dataWf hs.dataWithin

/-- A program-memory write keeps program RAM in canonical form and inside its region (20_memory.md R74). -/
theorem WritesRam.pram_wf {s t : State} (h : WritesRam s t) (hs : s.Inv) : Memory.wf Layout.unlistedRam t.pram ∧
    Memory.within (2 * s.params.pramBase.toNat) (2 * s.params.pramEnd.toNat + 2) t.pram := by
  obtain ⟨wa, v, lo, hin, rfl⟩ := h
  have hin : s.params.pramBase.toNat ≤ wa.toNat ∧ wa.toNat ≤ s.params.pramEnd.toNat := of_decide_eq_true hin
  exact ⟨wordWrite_wf hs.pramWf wa v, wordWrite_within hs.pramWithin (by omega) v⟩

/-- An instruction keeps program RAM in canonical form and inside its region (20_memory.md R74). -/
theorem exec_pram_wf {i : Instr} {s t : State} (h : exec i s = .next t) (hs : s.Inv) : Memory.wf Layout.unlistedRam t.pram ∧
    Memory.within (2 * s.params.pramBase.toNat) (2 * s.params.pramEnd.toNat + 2) t.pram := by
  by_cases hi : i ∈ [.iwrite, .iwritei]
  · simp only [List.mem_cons, List.not_mem_nil, or_false] at hi
    obtain rfl | rfl := hi
    · obtain rfl | hw | ⟨op, hi, lo, -, rfl⟩ := execIwrite_cases h
      · exact ⟨hs.pramWf, hs.pramWithin⟩
      · exact hw.pram_wf hs
      · exact ⟨hs.pramWf, hs.pramWithin⟩
    · exact (execIwritei_cases h).pram_wf hs
  · rw [(exec_hiddenFrame h).pram hi]
    exact ⟨hs.pramWf, hs.pramWithin⟩

/-- A return keeps the call stack within its depth. -/
theorem returnTo_callDepth {b : Bool} {s t : State} (h : returnTo b s = .ok t)
    (hs : s.callStack.length ≤ Layout.callStackDepth) : t.callStack.length ≤ Layout.callStackDepth := by
  obtain ⟨ra, rest, hcs, rfl⟩ := returnTo_eq_ok.mp h
  rw [hcs, List.length_cons] at hs
  exact Nat.le_of_succ_le hs

/-- An instruction keeps at most 16 return addresses (10_state.md R34). -/
theorem exec_callDepth {i : Instr} {s t : State} (h : exec i s = .next t)
    (hs : s.callStack.length ≤ Layout.callStackDepth) : t.callStack.length ≤ Layout.callStackDepth := by
  cases i with
  | call k =>
    obtain ⟨hroom, rfl⟩ := execCall_cases h
    exact hroom
  | ret | retnp => exact returnTo_callDepth (settle_eq_next.mp h) hs
  | retw k => exact returnTo_callDepth (s := { s with w := k }) (settle_eq_next.mp h) hs
  | _ => rw [(exec_hiddenFrame h).callStack (by simp) nofun nofun]; exact hs

/-- An issued operation is legal in the controller's slot. -/
theorem Issues.slot_legal {s t : State} (h : Issues s t) : flashSlotLegal s.params t.flashOp = true := by
  obtain ⟨op, hi, lo, hop, rfl⟩ := h
  exact hop

/-- An instruction keeps the controller's slot legal (46_system_control.md R252). -/
theorem exec_slot_legal {i : Instr} {s t : State} (h : exec i s = .next t)
    (hs : flashSlotLegal s.params s.flashOp = true) : flashSlotLegal s.params t.flashOp = true := by
  cases i with
  | ferase | fread | fwrite =>
    obtain rfl | hi := exec_flashInstruction_cases (by simp) h
    · exact hs
    · exact hi.slot_legal
  | iread =>
    obtain ⟨v, lo, rfl⟩ | hi := execIread_cases h
    · exact hs
    · exact hi.slot_legal
  | ireadi =>
    obtain ⟨u, lo, ⟨v, lo', rfl⟩ | hi, rfl⟩ := execIreadi_cases h
    · exact hs
    · exact hi.slot_legal
  | iwrite =>
    obtain rfl | ⟨wa, v, lo, -, rfl⟩ | hi := execIwrite_cases h
    · exact hs
    · exact hs
    · exact hi.slot_legal
  | _ => rw [(exec_hiddenFrame h).flashOp (by simp)]; exact hs

/-- An instruction keeps the invariant. -/
theorem exec_keeps_inv {i : Instr} {s t : State} (h : exec i s = .next t) (hs : s.Inv) : t.Inv := by
  have f := exec_hiddenFrame h
  obtain ⟨hdw, hdi⟩ := exec_data_wf h hs
  obtain ⟨hpw, hpi⟩ := exec_pram_wf h hs
  exact {
    paramsWf := f.params ▸ hs.paramsWf
    dataWf := hdw
    dataWithin := hdi
    pramWf := hpw
    pramWithin := f.params ▸ hpi
    flashWf := f.flash ▸ hs.flashWf
    flashWithin := by rw [f.params, f.flash]; exact hs.flashWithin
    callDepth := exec_callDepth h hs.callDepth
    controlBytes := by rw [f.xcfg, f.fcfg, f.tctrl]; exact hs.controlBytes
    slot := f.params ▸ exec_slot_legal h hs.slot }

/-! ### The invariant through the rest of a step -/

/-- An ADDR value in flash has its word address there. -/
theorem inFlash_of_addrInFlash {p : Params} {a : ByteAddress} (h : p.addrInFlash a = true) :
    p.flashBase.toNat ≤ (addrWord a).toNat ∧ (addrWord a).toNat ≤ p.flashEnd.toNat := by
  rw [Params.addrInFlash, Bool.and_eq_true] at h
  exact of_decide_eq_true h.2

/-- The words of an aligned erase block of flash lie in flash (46_system_control.md R254). -/
theorem Params.wf.eraseBlock_within {p : Params} (hw : p.wf) {a : ByteAddress} (hf : p.addrInFlash a = true)
    (ha : a.extractLsb' 0 9 = 0) : p.flashBase.toNat ≤ (addrWord a).toNat ∧
      (addrWord a).toNat + Layout.eraseBlockWords ≤ p.flashEnd.toNat + 1 := by
  have hin := inFlash_of_addrInFlash hf
  have halign : (addrWord a).toNat % 256 = 0 := by
    have h9 : a.toNat % 512 = 0 := by simpa using congrArg BitVec.toNat ha
    rw [addrWord, BitVec.extractLsb'_toNat, Nat.shiftRight_eq_div_pow]
    omega
  have hsize := hw.flashSize
  have hblocks := hw.flashBlocks
  simp only [Layout.flashWords, Layout.eraseBlockWords] at *
  omega

/-- Completing an erase sets the words of its block. -/
theorem complete_erase_flash (a : ByteAddress) (d : Word) (n : Nat) (s : State) : (complete ⟨.erase, a, d, n⟩ s).flash =
    eraseWords s.params.erasedWord s.flash (addrWord a) Layout.eraseBlockWords := by
  simp only [complete, applyFlashOp]

/-- Completing a flash write sets one word. -/
theorem complete_fwrite_flash (a : ByteAddress) (d : Word) (n : Nat) (s : State) : ∃ v, (complete ⟨.fwrite, a, d, n⟩ s).flash =
    wordWrite Layout.unlistedFlash s.flash (addrWord a) v := ⟨_, rfl⟩

/-- Completing a legal operation keeps flash in canonical form and inside its region (20_memory.md R74). -/
theorem complete_flash_wf {op : FlashOp} {s : State} (hs : s.Inv) (hop : op.legal s.params = true) :
    Memory.wf Layout.unlistedFlash (complete op s).flash ∧
    Memory.within (2 * s.params.flashBase.toNat) (2 * s.params.flashEnd.toNat + 2) (complete op s).flash := by
  obtain ⟨kind, a, d, n⟩ := op
  have hend := s.params.flashEnd.isLt
  cases kind with
  | erase =>
    simp only [FlashOp.legal, Bool.and_eq_true, beq_iff_eq] at hop
    obtain ⟨hlo, hhi⟩ := hs.paramsWf.eraseBlock_within hop.1 hop.2
    rw [complete_erase_flash]
    exact ⟨eraseWords_wf hs.flashWf _ _ _, eraseWords_within hs.flashWithin (by omega) (by omega) (by omega)⟩
  | fwrite =>
    simp only [FlashOp.legal, Bool.and_eq_true] at hop
    obtain ⟨hlo, hhi⟩ := inFlash_of_addrInFlash hop.1
    obtain ⟨v, hv⟩ := complete_fwrite_flash a d n s
    rw [hv]
    exact ⟨wordWrite_wf hs.flashWf _ _, wordWrite_within hs.flashWithin (by omega) _⟩
  | fread | ireadFlash | extRead | extWrite => exact ⟨hs.flashWf, hs.flashWithin⟩

/-- The controller's move keeps the invariant. -/
theorem controllerTick_keeps_inv {s : State} (hs : s.Inv) : (controllerTick s).Inv := by
  cases ho : s.flashOp with
  | none => rwa [controllerTick_idle ho]
  | some op =>
    have hop : op.legal s.params = true := by simpa [ho, flashSlotLegal] using hs.slot
    cases hw : op.wait with
    | zero =>
      obtain ⟨hwf, hin⟩ := complete_flash_wf hs hop
      rw [controllerTick_done ho hw, complete_frame]
      exact { hs with flashWf := hwf, flashWithin := hin, slot := rfl }
    | succ n =>
      rw [controllerTick_wait ho hw]
      exact { hs with slot := hop }

/-- The environment's move keeps the invariant. -/
theorem environment_keeps_inv {s : State} (hs : s.Inv) : (environment s).Inv := by
  rw [(environment_frame s).1]
  exact { hs with }

/-- The environment's move keeps the parameters. -/
theorem environment_params (s : State) : (environment s).params = s.params := by
  rw [(environment_frame s).1]

/-- Settles O5: the defaults of the parameters are well-formed, and every memory and the stack are empty. -/
theorem invariantHoldsAtReset : Obligations.InvariantHoldsAtReset :=
  { paramsWf := Params.family_wf, dataWf := reset_memories_wf.1, dataWithin := List.forall_mem_nil _,
    pramWf := reset_memories_wf.2.1, pramWithin := List.forall_mem_nil _,
    flashWf := reset_memories_wf.2.2, flashWithin := List.forall_mem_nil _, callDepth := Nat.zero_le _,
    controlBytes := ⟨rfl, rfl, rfl⟩, slot := rfl }

/-- A reset keeps the invariant: flash and the parameters are kept, and all else is as in the state after reset. -/
theorem applyReset_keeps_inv {c : ResetCause} {s : State} (hs : s.Inv) : (applyReset c s).Inv :=
  have h0 : State.reset.Inv := invariantHoldsAtReset
  { h0 with
    paramsWf := hs.paramsWf, pramWithin := List.forall_mem_nil _, flashWf := hs.flashWf, flashWithin := hs.flashWithin }

/-- The core's move keeps the parameters and the invariant. -/
theorem coreStep_keeps_inv {s u : State} (h : coreStep s = .next u) : u.params = s.params ∧ (s.Inv → u.Inv) := by
  obtain ⟨-, rfl⟩ | h | ⟨w, i, -, -, h⟩ := coreStep_eq_next_cases h
  · exact ⟨rfl, id⟩
  · obtain ⟨-, rfl⟩ := interruptEntry_eq_ok.mp h
    exact ⟨rfl, fun hs => { hs with }⟩
  · exact ⟨(exec_hiddenFrame h).params, exec_keeps_inv h⟩

/-- Settles O6: a reset, or the controller, the core and the environment in turn, each keep the invariant and the parameters. -/
theorem stepKeepsInvariant : Obligations.StepKeepsInvariant := by
  intro s t h
  obtain ⟨c, -, rfl⟩ | ⟨-, u, hu, rfl⟩ := step_eq_next_cases h
  · exact ⟨environment_params _, fun hs => environment_keeps_inv (applyReset_keeps_inv hs)⟩
  · obtain ⟨hparams, hinv⟩ := coreStep_keeps_inv hu
    refine ⟨?_, fun hs => environment_keeps_inv (hinv (controllerTick_keeps_inv hs))⟩
    rw [environment_params, hparams, controllerTick_frame]

end Sys2Proof.Machine
end

section
/-! The state (10_state.md): what a read and a write of every data address reach (O13, O14, O15), STATUS through an instruction (O60),
the order of a step (O7), the values after reset (O9) and the limits of the call stack (O44). -/

namespace Sys2Proof.Machine

/-! ### The register found at an address -/

/-- Where a register lies; a platform device is at every address that is left over (10_state.md R41 to R44). -/
def Params.addressOf (p : Params) : Register → Option Word
  | .addrsel => some p.addrAddrsel
  | .addrx => some p.addrAddrx
  | .iph => some 0x004
  | .ipl => some 0x005
  | .sph => some 0x006
  | .spl => some 0x007
  | .pch => some p.addrPch
  | .pcl => some 0x009
  | .wreg => some p.addrWreg
  | .status => some 0x00B
  | .dph => some 0x00C
  | .dpl => some 0x00D
  | .spdreg => some p.addrSpdreg
  | .mulh => some p.addrMulh
  | .addrh => some p.addrAddrh
  | .addrl => some p.addrAddrl
  | .datah => some p.addrDatah
  | .datal => some p.addrDatal
  | .intvech => some p.addrIntvech
  | .intvecl => some p.addrIntvecl
  | .intspd => some p.addrIntspd
  | .fcfg => some p.addrFcfg
  | .tctrl => some p.addrTctrl
  | .xcfg => some p.addrXcfg
  | .ipch => some p.addrIpch
  | .ipcl => some p.addrIpcl
  | .callh => some p.addrCallh
  | .calll => some p.addrCalll
  | .t0tmr => some p.addrT0tmr
  | .platform => none

/-- The model's list holds each register at the place `addressOf` gives. -/
theorem mem_registers_iff {p : Params} {a : Word} {r : Register} : (a, r) ∈ p.registers ↔ p.addressOf r = some a := by
  cases r <;> simp [Params.registers, Params.addressOf, Layout.addrIph, Layout.addrIpl, Layout.addrSph, Layout.addrSpl,
    Layout.addrPcl, Layout.addrStatus, Layout.addrDph, Layout.addrDpl, eq_comm]

/-- A register found at an address lies there. -/
theorem addressOf_registerAt {p : Params} {a : Word} (h : p.registerAt a ≠ .platform) :
    p.addressOf (p.registerAt a) = some a :=
  mem_registers_iff.mp (mem_of_registerAt h)

/-- An address outside a list that holds the place of every register is a platform device's. -/
theorem registerAt_platform_of_addressOf {p : Params} {a : Word} {l : List Word}
    (hl : ∀ r b, p.addressOf r = some b → b ∈ l) (ha : a ∉ l) : p.registerAt a = .platform := by
  by_contra h
  exact ha (hl _ a (addressOf_registerAt h))

/-- A read at the place of a register gives its value, with the control bits there. -/
theorem readFile_at {s : State} (hw : s.params.wf) {a : Word} (r : Register) (ha : s.params.addressOf r = some a := by rfl) :
    readFile a s = .ok (s.putControlBits a (readRegister r a s)) :=
  (readWriteFile_register hw (mem_registers_iff.mpr ha) 0).1

/-- A read at the place of a register that the control bits do not share gives its value. -/
theorem readFile_at_plain {s : State} (hw : s.params.wf) {a : Word} (r : Register)
    (ha : s.params.addressOf r = some a := by rfl) (hr : r ∉ [.xcfg, .fcfg, .tctrl, .platform] := by decide) :
    readFile a s = .ok (readRegister r a s) :=
  (readWriteFile_plain hw (mem_registers_iff.mpr ha) hr 0).1

/-- A write at the place of a register that the control bits do not share is a write of that register. -/
theorem writeFile_at_plain {s : State} (hw : s.params.wf) {a : Word} {v : Byte} (r : Register)
    (ha : s.params.addressOf r = some a := by rfl) (hr : r ∉ [.xcfg, .fcfg, .tctrl, .platform] := by decide) :
    writeFile a v s = writeRegister r v s :=
  (readWriteFile_plain hw (mem_registers_iff.mpr ha) hr v).2

/-- A write at the place of a register that takes no write stops, whatever else lies there. -/
theorem writeFile_at_refused {s : State} (hw : s.params.wf) {a : Word} {v : Byte} {e : Fault} (r : Register)
    (ha : s.params.addressOf r = some a := by rfl) (he : writeRegister r v s = .error e := by rfl) :
    writeFile a v s = .error e := by
  rw [(readWriteFile_register hw (mem_registers_iff.mpr ha) v).2, he]
  rfl

/-! ### The other data addresses (10_state.md R40) -/

/-- From 0x080 to 0xFFF a file-register access goes to data memory. -/
theorem readWriteFile_data {a : Word} (h1 : 0x080 ≤ a.toNat) (h2 : a.toNat ≤ 0xFFF) (v : Byte) (s : State) :
    readFile a s = .ok (memRead Layout.unlistedRam s.data a.toNat) ∧
    writeFile a v s = .ok { s with data := memWrite Layout.unlistedRam s.data a.toNat v } := by
  have h0 : a ≠ 0 := by rintro rfl; simp at h1
  have h3 : ¬ Layout.dataEnd ≤ a.toNat := by unfold Layout.dataEnd; omega
  have h4 : Layout.dataBase ≤ a.toNat := h1
  unfold readFile writeFile
  rw [if_neg h0, if_neg h3, if_pos h4, if_neg h0, if_neg h3, if_pos h4]
  exact ⟨rfl, rfl⟩

/-- Above 0xFFF a file-register access stops. -/
theorem readWriteFile_beyond {a : Word} (h : 0xFFF < a.toNat) (v : Byte) (s : State) :
    readFile a s = .error .dataAddressBeyond4K ∧ writeFile a v s = .error .dataAddressBeyond4K := by
  have h0 : a ≠ 0 := by rintro rfl; simp at h
  have h3 : Layout.dataEnd ≤ a.toNat := h
  unfold readFile writeFile
  rw [if_neg h0, if_pos h3, if_neg h0, if_pos h3]
  exact ⟨rfl, rfl⟩

/-! ### Reads -/

/-- A register that is only named, and a platform register, reads as a free value (log entries 10, 11). -/
theorem readRegister_free {p : Params} {a : Word} {s : State}
    (ha : a ∉ [0x004, 0x005, 0x006, 0x007, 0x009, 0x00B, 0x00C, 0x00D, p.addrAddrsel, p.addrAddrx, p.addrPch, p.addrWreg, p.addrSpdreg,
      p.addrMulh, p.addrAddrh, p.addrAddrl, p.addrDatah, p.addrDatal, p.addrIntvech, p.addrIntvecl, p.addrIntspd, p.addrFcfg,
      p.addrTctrl, p.addrXcfg, p.addrT0tmr]) :
    readRegister (p.registerAt a) a s = Config.platformRead a s.time := by
  have hat := addressOf_registerAt (p := p) (a := a)
  generalize p.registerAt a = r at hat
  cases r
  case ipch | ipcl | callh | calll | platform => rfl
  all_goals
    obtain rfl := Option.some.inj (hat (by decide))
    exact absurd (by simp) ha

/-- XCFG reads with FBUSY, and the control bits that lie there. -/
theorem readFile_xcfg {s : State} (hw : s.params.wf) : readFile s.params.addrXcfg s = .ok (s.putControlBits s.params.addrXcfg
    (BitPlace.put ⟨s.params.addrXcfg, s.params.fbusyBit⟩ s.params.addrXcfg s.flashOp.isSome s.xcfg)) := by
  rw [BitPlace.put, if_pos rfl]
  exact readFile_at hw .xcfg

/-- Settles O13: each register at its place, then the addresses left over, data memory, and the two ends. -/
theorem fileRegisterRead : Obligations.FileRegisterRead := by
  intro s hw
  exact ⟨readFile_at_plain hw .iph, readFile_at_plain hw .ipl, readFile_at_plain hw .sph, readFile_at_plain hw .spl,
    readFile_at_plain hw .pcl, readFile_at_plain hw .status, readFile_at_plain hw .dph, readFile_at_plain hw .dpl,
    readFile_at_plain hw .addrsel, readFile_at_plain hw .addrx, readFile_at_plain hw .pch, readFile_at_plain hw .wreg,
    readFile_at_plain hw .spdreg, readFile_at_plain hw .mulh, readFile_at_plain hw .addrh, readFile_at_plain hw .addrl,
    readFile_at_plain hw .datah, readFile_at_plain hw .datal, readFile_at_plain hw .intvech, readFile_at_plain hw .intvecl,
    readFile_at_plain hw .intspd, readFile_at hw .fcfg, readFile_at hw .tctrl, readFile_xcfg hw, readFile_at_plain hw .t0tmr,
    fun a h1 h2 ha => by rw [(readWriteFile_below h1 h2 0 s).1, readRegister_free ha]; rfl,
    fun a h1 h2 => (readWriteFile_data h1 h2 0 s).1, rfl, fun a h => (readWriteFile_beyond h 0 s).1⟩

/-! ### Writes -/

/-- Two bytes differ outside a mask alone exactly when they agree under it. -/
theorem xor_and_eq_zero_iff {x y m : Byte} : (x ^^^ y) &&& m = 0 ↔ x &&& m = y &&& m := by
  have hdistrib : (x ^^^ y) &&& m = (x &&& m) ^^^ (y &&& m) := by
    ext i hi
    simp [Bool.and_xor_distrib_right]
  rw [hdistrib]
  exact BitVec.xor_eq_zero_iff

/-- A write of STATUS is accepted exactly when WD and BO stay (10_state.md R25). -/
theorem writeStatus_eq (v : Byte) (s : State) : writeStatus v s =
    if v &&& 0x18 = s.status &&& 0x18 then .ok { s with status := v } else .error .statusWdBo := by
  simp only [writeStatus, ne_eq, ite_not, xor_and_eq_zero_iff]

/-- Where no register of the core lies, a write reaches the control bits alone (log entries 10, 12). -/
theorem writeFile_platform {a : Word} (h1 : 1 ≤ a.toNat) (h2 : a.toNat ≤ 0x7F) {v : Byte} {s : State}
    (ha : s.params.registerAt a = .platform) : writeFile a v s = .ok (s.takeControlBits a v) := by
  rw [(readWriteFile_below h1 h2 v s).2, ha]
  rfl

/-- Settles O14: each register at its place, those that take no write, then the addresses left over, data memory, and the two ends. -/
theorem fileRegisterWrite : Obligations.FileRegisterWrite := by
  intro v s hw
  refine ⟨writeFile_at_plain hw .iph, writeFile_at_plain hw .ipl, writeFile_at_plain hw .sph, writeFile_at_plain hw .spl,
    writeFile_at_plain hw .pcl, (writeFile_at_plain hw .status).trans (writeStatus_eq v s), writeFile_at_plain hw .dph,
    writeFile_at_plain hw .dpl, writeFile_at_plain hw .addrsel, writeFile_at_plain hw .addrx, writeFile_at_plain hw .wreg,
    writeFile_at_plain hw .mulh, writeFile_at_plain hw .addrh, writeFile_at_plain hw .addrl, writeFile_at_plain hw .datah,
    writeFile_at_plain hw .datal, writeFile_at_plain hw .intvech, writeFile_at_plain hw .intvecl,
    writeFile_at_plain hw .intspd, writeFile_at_plain hw .t0tmr, writeFile_at_refused hw .xcfg, fun a ha => ?refused,
    fun a h1 h2 ha => writeFile_platform h1 h2 (registerAt_platform_of_addressOf (fun r b hr => ?listed) ha),
    fun a h1 h2 => (readWriteFile_data h1 h2 v s).2, rfl, fun a h => (readWriteFile_beyond h v s).2⟩
  case refused =>
    simp only [List.mem_cons, List.not_mem_nil, or_false] at ha
    obtain rfl | rfl | rfl | rfl | rfl | rfl | rfl | rfl := ha
    · exact writeFile_at_refused hw .pch
    · exact writeFile_at_refused hw .spdreg
    · exact writeFile_at_refused hw .fcfg
    · exact writeFile_at_refused hw .tctrl
    · exact writeFile_at_refused hw .ipch
    · exact writeFile_at_refused hw .ipcl
    · exact writeFile_at_refused hw .callh
    · exact writeFile_at_refused hw .calll
  case listed =>
    cases r with
    | platform => cases hr
    | _ => cases hr; simp

/-! ### Read after write -/

/-- A read depends on data memory only through the byte at its own address. -/
theorem readFile_data_congr {b : Word} {s : State} {m : Memory}
    (h : memRead Layout.unlistedRam m b.toNat = memRead Layout.unlistedRam s.data b.toNat) :
    readFile b { s with data := m } = readFile b s := by
  have hr (r : Register) : readRegister r b { s with data := m } = readRegister r b s := by cases r <;> rfl
  simp only [readFile, h, hr]
  rfl

/-- Settles O15: a write there is a write of data memory, which reads back and leaves every other byte. -/
theorem dataMemoryReadsBack : Obligations.DataMemoryReadsBack := by
  intro a v s t hwf ha h
  obtain ⟨-, hlt, ⟨-, rfl⟩ | ⟨hbelow, -⟩⟩ := writeFile_cases h
  · refine ⟨?_, fun b hb => readFile_data_congr (memRead_memWrite_other hwf v fun e => hb (BitVec.eq_of_toNat_eq e))⟩
    rw [(readWriteFile_data ha (Nat.le_of_lt_succ hlt) 0 _).1]
    exact congrArg Except.ok (memRead_memWrite_same hwf a.toNat v)
  · exact absurd ha (Nat.not_le.mpr hbelow)

/-! ### WD and BO through the writes of STATUS (10_state.md R25, R26) -/

/-- A flag written keeps WD and BO. -/
theorem setFlag_wdBo {i : Nat} (hi : i < 3) (st : Byte) (o : Option Bool) : setFlag st i o &&& 0x18 = st &&& 0x18 := by
  have hbit : ∀ j : Fin 3, ∀ (st : Byte) (b : Bool), setBit st j b &&& 0x18 = st &&& 0x18 := by decide
  cases o with
  | none => rfl
  | some b => exact hbit ⟨i, hi⟩ st b

/-- The flags of a result keep WD and BO. -/
theorem statusAfter_wdBo (r : AluResult) (st : Byte) : r.statusAfter st &&& 0x18 = st &&& 0x18 := by
  rw [AluResult.statusAfter, setFlag_wdBo (by decide), setFlag_wdBo (by decide), setFlag_wdBo (by decide)]

/-- The page bits written keep WD and BO. -/
theorem withPage_wdBo (st : Byte) (p : BitVec 3) : withPage st p &&& 0x18 = st &&& 0x18 := by
  have h : ∀ (st : Byte) (p : BitVec 3), withPage st p &&& 0x18 = st &&& 0x18 := by decide
  exact h st p

/-- A register write changes STATUS only where the register is STATUS. -/
theorem writeRegister_status {r : Register} {v : Byte} {s t : State} (h : writeRegister r v s = .ok t) (hr : r ≠ .status) :
    t.status = s.status := by
  cases r
  case status => exact absurd rfl hr
  case pch | spdreg | fcfg | tctrl | xcfg | ipch | ipcl | callh | calll => cases h
  all_goals
    cases h
    rfl

/-- A file-register write changes STATUS only at its address, and there keeps WD and BO. -/
theorem writeFile_status {a : Word} {v : Byte} {s t : State} (h : writeFile a v s = .ok t) :
    (a ≠ Layout.addrStatus → t.status = s.status) ∧ t.status &&& 0x18 = s.status &&& 0x18 := by
  obtain ⟨-, -, ⟨-, rfl⟩ | ⟨-, u, hu, rfl⟩⟩ := writeFile_cases h
  · exact ⟨fun _ => rfl, rfl⟩
  · rw [State.takeControlBits_status]
    by_cases hr : s.params.registerAt a = .status
    · rw [hr] at hu
      obtain ⟨hkeep, rfl⟩ := writeStatus_eq_ok.mp hu
      exact ⟨fun ha => absurd (registerAt_eq_status hr) ha, xor_and_eq_zero_iff.mp hkeep⟩
    · have hsame := writeRegister_status hu hr
      exact ⟨fun _ => hsame, by rw [hsame]⟩

/-! ### STATUS through an instruction -/

/-- Between `s` and `t` WD and BO stay, and so does STATUS as a whole, unless the instruction writes it as its own effect (`own`) or stores
at its address (`o`). -/
structure StatusKept (own : Bool) (o : Option Word) (s t : State) : Prop where
  whole : own = false → o ≠ some Layout.addrStatus → t.status = s.status
  wdBo : t.status &&& 0x18 = s.status &&& 0x18

/-- STATUS left alone. -/
theorem StatusKept.of_eq {own : Bool} {o : Option Word} {s t : State} (h : t.status = s.status) : StatusKept own o s t :=
  ⟨fun _ _ => h, by rw [h]⟩

/-- An instruction that writes STATUS as its own effect has WD and BO to keep. -/
theorem StatusKept.of_own {o : Option Word} {s t : State} (h : t.status &&& 0x18 = s.status &&& 0x18) : StatusKept true o s t :=
  ⟨nofun, h⟩

/-- What leaves STATUS alone may follow. -/
theorem StatusKept.andThen {own : Bool} {o : Option Word} {s t u : State} (h : StatusKept own o s t) (hu : u.status = t.status) :
    StatusKept own o s u :=
  ⟨fun h1 h2 => hu.trans (h.whole h1 h2), by rw [hu, h.wdBo]⟩

/-- What leaves STATUS alone may come before. -/
theorem StatusKept.after {own : Bool} {o : Option Word} {s t u : State} (h : StatusKept own o u t) (hu : u.status = s.status) :
    StatusKept own o s t :=
  ⟨fun h1 h2 => (h.whole h1 h2).trans hu, by rw [h.wdBo, hu]⟩

/-- A skip leaves STATUS alone. -/
theorem status_of_skipWhen {c : Bool} {s t u : State} (h : skipWhen c s t = .ok u) : u.status = t.status := by
  obtain ⟨-, rfl⟩ | ⟨-, p, -, rfl⟩ := skipWhen_eq_ok.mp h <;> rfl

/-- A file-register write. -/
theorem StatusKept.write {own : Bool} {a : Word} {v : Byte} {s t : State} (h : writeFile a v s = .ok t) :
    StatusKept own (some a) s t :=
  ⟨fun _ ha => (writeFile_status h).1 fun e => ha (congrArg some e), (writeFile_status h).2⟩

/-- The flags of a result, which an instruction that does not write STATUS as its own effect has none of. -/
theorem StatusKept.flags {own : Bool} {o : Option Word} {r : AluResult} {s : State}
    (hr : own = true ∨ ∀ st, r.statusAfter st = st) : StatusKept own o s (s.advance.setFlags r) := by
  obtain rfl | hr := hr
  · exact .of_own (statusAfter_wdBo r s.status)
  · exact .of_eq (hr s.status)

/-- A result into a file register. -/
theorem StatusKept.result {own : Bool} {a : Word} {r : AluResult} {s t : State} (hr : own = true ∨ ∀ st, r.statusAfter st = st)
    (h : resultToFile a r s = .ok t) : StatusKept own (some a) s t := by
  have hw : StatusKept own (some a) _ t := .write (resultToFile_eq_ok.mp h).2
  have hf : StatusKept own (some a) s _ := .flags hr
  exact ⟨fun h1 h2 => (hw.whole h1 h2).trans (hf.whole h1 h2), hw.wdBo.trans hf.wdBo⟩

/-- A read-modify-write. -/
theorem StatusKept.update {own : Bool} {f : FileOperand} {op : Byte → AluResult} {s t : State}
    (hr : own = true ∨ ∀ v st, (op v).statusAfter st = st) (h : updateFile f op s = .ok t) :
    StatusKept own (operandAddress f s) s t := by
  obtain ⟨a, v, ha, -, hn, h⟩ := updateFile_eq_ok.mp h
  rw [operandAddress_of_ok ha]
  exact .result (hr.imp_right (· v)) (resultToFile_eq_ok.mpr ⟨hn, h⟩)

/-- A result into W. -/
theorem StatusKept.toW {own : Bool} {o : Option Word} {f : FileOperand} {op : Byte → AluResult} {s t : State}
    (hr : own = true ∨ ∀ v st, (op v).statusAfter st = st) (h : fileToW f op s = .ok t) : StatusKept own o s t := by
  obtain ⟨v, -, rfl⟩ := fileToW_eq_ok.mp h
  exact (StatusKept.flags (hr.imp_right (· v))).andThen rfl

/-- A count-and-skip form into a file register. -/
theorem StatusKept.countInFile {own : Bool} {f : FileOperand} {count : Byte → Byte} {cond : Byte → Bool} {s t : State}
    (h : countInFile f count cond s = .ok t) : StatusKept own (operandAddress f s) s t := by
  obtain ⟨a, v, u, ha, -, -, hu, hs⟩ := countInFile_eq_ok.mp h
  rw [operandAddress_of_ok ha]
  exact (StatusKept.after (s := s) (.write hu) rfl).andThen (status_of_skipWhen hs)

/-- A push. -/
theorem StatusKept.push {own : Bool} {v : Byte} {s t : State} (h : pushByte v s = .ok t) : StatusKept own (some s.sp) s t := by
  obtain ⟨u, hu, rfl⟩ := pushByte_eq_ok.mp h
  exact (StatusKept.after (s := s) (.write hu) rfl).andThen rfl

/-- A return: PA2:0 at most, where STATUS is the instruction's own to write. -/
theorem StatusKept.of_returnTo {own : Bool} {o : Option Word} {s t : State} (h : returnTo own s = .ok t) : StatusKept own o s t := by
  obtain ⟨ra, rest, -, rfl⟩ := returnTo_eq_ok.mp h
  cases own with
  | false => exact .of_eq rfl
  | true => exact .of_own (withPage_wdBo _ _)

/-- A count-and-skip form into W leaves STATUS alone. -/
theorem status_of_countToW {f : FileOperand} {count : Byte → Byte} {cond : Byte → Bool} {s t : State}
    (h : countToW f count cond s = .ok t) : t.status = s.status := by
  obtain ⟨v, -, h⟩ := countToW_eq_ok.mp h
  exact (status_of_skipWhen h).trans rfl

/-- A test and skip leaves STATUS alone. -/
theorem status_of_testAndSkip {f : FileOperand} {cond : Byte → Bool} {s t : State} (h : testAndSkip f cond s = .ok t) :
    t.status = s.status := by
  obtain ⟨v, -, h⟩ := testAndSkip_eq_ok.mp h
  exact (status_of_skipWhen h).trans rfl

/-- A multiply leaves STATUS alone. -/
theorem status_of_multiplyFile {f : FileOperand} {p : Byte → Byte → Word} {s t : State} (h : multiplyFile f p s = .ok t) :
    t.status = s.status := by
  obtain ⟨v, -, rfl⟩ := multiplyFile_eq_ok.mp h
  rfl

/-- Issuing an operation leaves STATUS alone. -/
theorem status_of_issues {s t : State} (h : Issues s t) : t.status = s.status := by
  obtain ⟨op, hi, lo, -, rfl⟩ := h
  rfl

/-- A program-memory read leaves STATUS alone. -/
theorem status_of_readsWord {s t : State} (h : ReadsWord s t) : t.status = s.status := by
  obtain ⟨v, lo, rfl⟩ := h
  rfl

/-- A program-memory write leaves STATUS alone. -/
theorem status_of_writesRam {s t : State} (h : WritesRam s t) : t.status = s.status := by
  obtain ⟨wa, v, lo, -, rfl⟩ := h
  rfl

/-- Every instruction but `reti`, which restores STATUS from the shadow set, keeps WD and BO, and STATUS as a whole unless it is a writer of
STATUS or stores there. -/
theorem exec_statusKept {i : Instr} {s t : State} (hreti : ∀ n, i ≠ .reti n) (h : exec i s = .next t) :
    StatusKept (writesStatus i) (storeAddress i s) s t := by
  cases i with
  | reti n => exact absurd rfl (hreti n)
  | subFrW f | decFr f | orFrW f | andFrW f | xorFrW f | notFr f | incFr f | rrFr f | rlFr f | subcFrW f | addcFrW f =>
    exact .update (.inl rfl) (settle_eq_next.mp h)
  | swapFr f | clrbFrBit f b | setbFrBit f b => exact .update (.inr fun _ _ => rfl) (settle_eq_next.mp h)
  | subWFr f | decWFr f | orWFr f | andWFr f | xorWFr f | addWFr f | movWFr f | notWFr f | incWFr f | rrWFr f | rlWFr f
  | subcWFr f | addcWFr f => exact .toW (.inl rfl) (settle_eq_next.mp h)
  | swapWFr f => exact .toW (.inr fun _ _ => rfl) (settle_eq_next.mp h)
  | cmpWFr f =>
    obtain ⟨v, -, h⟩ := bind_eq_ok.mp (settle_eq_next.mp h)
    cases h
    exact .of_own (statusAfter_wdBo _ _)
  | cmpWLit k | subWLit k | addWLit k | orWLit k | andWLit k | xorWLit k => cases h; exact .of_own (statusAfter_wdBo _ _)
  | page n => cases h; exact .of_own (withPage_wdBo _ _)
  | ret | retnp => exact .of_returnTo (settle_eq_next.mp h)
  | retw k => exact (StatusKept.of_returnTo (settle_eq_next.mp h)).after rfl
  | decszFr f | incszFr f | decsnzFr f | incsnzFr f => exact .countInFile (settle_eq_next.mp h)
  | movFrW f =>
    obtain ⟨a, ha, h⟩ := bind_eq_ok.mp (settle_eq_next.mp h)
    rw [storeAddress, operandAddress_of_ok ha]
    exact (StatusKept.write h).after rfl
  | clrFr f =>
    obtain ⟨a, ha, h⟩ := bind_eq_ok.mp (settle_eq_next.mp h)
    rw [storeAddress, operandAddress_of_ok ha]
    exact .result (.inl rfl) h
  | addFrW f =>
    obtain ⟨a, ha, h⟩ := bind_eq_ok.mp (settle_eq_next.mp h)
    obtain ⟨v, -, h⟩ := bind_eq_ok.mp h
    rw [storeAddress, operandAddress_of_ok ha]
    split at h
    · cases h
    · exact .result (.inl rfl) h
  | testFr f =>
    obtain ⟨a, r, u, p, ha, hu, rfl⟩ := execTestFr_cases h
    rw [storeAddress, operandAddress_of_ok ha]
    exact (StatusKept.result (.inl rfl) hu).andThen rfl
  | popFr f =>
    obtain ⟨a, ha, h⟩ := bind_eq_ok.mp (settle_eq_next.mp h)
    obtain ⟨-, ha, -, -⟩ := popAddress_eq_ok.mp ha
    obtain ⟨v, -, h⟩ := popByte_eq_ok.mp h
    rw [storeAddress, operandAddress_of_ok ha]
    exact (StatusKept.write h).after rfl
  | pushFr f =>
    obtain ⟨v, -, h⟩ := bind_eq_ok.mp (settle_eq_next.mp h)
    exact .push h
  | pushLit k => exact .push (settle_eq_next.mp h)
  | decszWFr f | incszWFr f | decsnzWFr f | incsnzWFr f => exact .of_eq (status_of_countToW (settle_eq_next.mp h))
  | csneWFr f | cseWFr f | snbFrBit f b | sbFrBit f b => exact .of_eq (status_of_testAndSkip (settle_eq_next.mp h))
  | csneWLit k | cseWLit k => exact .of_eq ((status_of_skipWhen (settle_eq_next.mp h)).trans rfl)
  | muluWFr f | mulsWFr f => exact .of_eq (status_of_multiplyFile (settle_eq_next.mp h))
  | loadh k | loadl k | muluWLit k | mulsWLit k | movWLit k | jmp k | nop | brk | brkx | cwdt | speed n =>
    cases h
    exact .of_eq rfl
  | call k =>
    obtain ⟨-, rfl⟩ := execCall_cases h
    exact .of_eq rfl
  | int =>
    obtain rfl | h := execInt_cases h
    · exact .of_eq rfl
    · obtain ⟨-, rfl⟩ := interruptEntry_eq_ok.mp h
      exact .of_eq rfl
  | ferase | fread | fwrite =>
    obtain rfl | h := exec_flashInstruction_cases (by simp) h
    · exact .of_eq rfl
    · exact .of_eq (status_of_issues h)
  | iread => exact .of_eq ((execIread_cases h).elim status_of_readsWord status_of_issues)
  | ireadi =>
    obtain ⟨u, lo, hu, rfl⟩ := execIreadi_cases h
    exact .of_eq (hu.elim status_of_readsWord status_of_issues)
  | iwrite =>
    obtain rfl | h | h := execIwrite_cases h
    · exact .of_eq rfl
    · exact .of_eq (status_of_writesRam h)
    · exact .of_eq (status_of_issues h)
  | iwritei => exact .of_eq (status_of_writesRam (execIwritei_cases h))

/-- Settles O60: all instructions but `reti` keep WD and BO, and `reti` is itself a writer of STATUS. -/
theorem statusFrame : Obligations.StatusFrame := by
  intro i s t h
  refine ⟨fun hown ho => ?_, fun hreti => (exec_statusKept hreti h).wdBo⟩
  have hreti : ∀ n, i ≠ .reti n := by rintro n rfl; cases hown
  exact (exec_statusKept hreti h).whole hown ho

/-! ### The step, reset and the call stack -/

/-- A fetched word that decodes is executed. -/
theorem runFetched_of_decode {s : State} {w : Word} {i : Instr} (hf : fetch s = .ok w) (hd : decode w = .ok i) :
    runFetched s = exec i s := by
  simp only [runFetched, hf, hd]

/-- Settles O7: the step in the order of R47, and the frame of the environment. -/
theorem stepRunsDecodedInstruction : Obligations.StepRunsDecodedInstruction := by
  refine ⟨fun s w i hr hb hi hf hd => ?_, fun t => ?_, fun _ => rfl, fun _ => rfl⟩
  · rw [step_eq_runFetched hr hb hi, runFetched_of_decode hf hd]
  · obtain ⟨hframe, hdata⟩ := environment_frame t
    exact ⟨environment t, rfl, hframe, hdata⟩

/-- Settles O9: each item is a field of `State.reset`. -/
theorem resetValues : Obligations.ResetValues :=
  ⟨rfl, rfl, rfl, rfl, rfl, rfl, rfl, rfl⟩

/-- A push on a full call stack stops (10_state.md R34). -/
theorem callPush_full {v : Word} {s : State} (h : Layout.callStackDepth ≤ s.callStack.length) :
    callPush v s = .error .callStackOverflow := if_pos h

/-- A return with nothing pushed stops (10_state.md R34). -/
theorem returnTo_empty {b : Bool} {s : State} (h : s.callStack = []) : returnTo b s = .error .callStackUnderflow := by
  simp only [returnTo, callPop, h]

/-- Settles O44: a call pushes, and each of the three returns pops. -/
theorem callStackLimits : Obligations.CallStackLimits := by
  intro k c s
  refine ⟨fun hfull => ?_, fun hempty i hi => ?_⟩
  · have hpush : callPush (s.pc + 1) s = .error .callStackOverflow := callPush_full hfull.ge
    show execCall k s = _
    rw [execCall, hpush]
    rfl
  · simp only [List.mem_cons, List.not_mem_nil, or_false] at hi
    obtain rfl | rfl | rfl := hi
    · exact settle_eq_fault.mpr (returnTo_empty hempty)
    · exact settle_eq_fault.mpr (returnTo_empty hempty)
    · exact settle_eq_fault.mpr (returnTo_empty (s := { s with w := c }) hempty)

end Sys2Proof.Machine
end

section
/-! Memory (20_memory.md): the word placed where the core fetches (O8), the program-RAM word that `iwrite` and `iwritei` store (O55), and
the frame of data memory over all instructions (O58). -/

namespace Sys2Proof.Machine

/-! ### The placed word (20_memory.md R78, log entry 31) -/

/-- A fetch from program RAM. -/
theorem fetch_of_inPram {s : State} {w : Word} (h : s.params.inPram s.pc = true) (hw : s.pramWord s.pc = w) :
    fetch s = .ok w :=
  pmemRead_eq_ok.mpr (.inl ⟨h, hw.symm⟩)

/-- A fetch from flash with FBUSY = 0. -/
theorem fetch_of_inFlash {s : State} {w : Word} (hp : s.params.inPram s.pc = false) (hf : s.params.inFlash s.pc = true)
    (hb : s.fbusy = false) (hw : s.flashWord s.pc = w) : fetch s = .ok w :=
  pmemRead_eq_ok.mpr (.inr ⟨hp, hf, hb, hw.symm⟩)

/-- The first word of program RAM is in program RAM. -/
theorem Params.wf.pramBase_inPram {p : Params} (hw : p.wf) : p.inPram p.pramBase = true := by
  have hsize := hw.pramSize
  simp only [Layout.pramWords] at hsize
  exact decide_eq_true ⟨le_rfl, by omega⟩

/-- The placed word is the one fetched, from program RAM, from flash, or from the first word of program RAM. -/
theorem fetch_placeFetchWord {s : State} (hs : s.Inv) (w : Word) : fetch (placeFetchWord s w) = .ok w := by
  unfold placeFetchWord
  by_cases hp : s.params.inPram s.pc = true
  · rw [if_pos hp]
    exact fetch_of_inPram hp (wordRead_wordWrite_same hs.pramWf s.pc w)
  · rw [if_neg hp]
    by_cases hf : s.params.inFlash s.pc = true
    · rw [if_pos hf]
      exact fetch_of_inFlash (Bool.eq_false_iff.mpr hp) hf rfl (wordRead_wordWrite_same hs.flashWf s.pc w)
    · rw [if_neg hf]
      exact fetch_of_inPram hs.paramsWf.pramBase_inPram (wordRead_wordWrite_same hs.pramWf s.params.pramBase w)

/-- Sixteen bits given as a number are the word placed. -/
theorem withFetchWord_eq (s : State) (w : Word) : s.withFetchWord 16 w.toNat = placeFetchWord s w := by
  rw [State.withFetchWord, Nat.mod_eq_of_lt w.isLt, BitVec.ofNat_toNat, BitVec.setWidth_eq]

/-- Settles O8: nothing runs before the placed word, and it is what the step fetches. -/
theorem withFetchWordRunsTheWord : Obligations.WithFetchWordRunsTheWord := by
  intro s w i hs hd
  obtain ⟨hbreak, hirq, hreset, hidle⟩ := placeFetchWord_quiet s w
  rw [withFetchWord_eq, step_eq_runFetched hreset hbreak (by rw [hirq, Bool.false_and]), controllerTick_idle hidle,
    runFetched_of_decode (fetch_placeFetchWord hs w) hd]

/-! ### The word that `iwrite` and `iwritei` store (20_memory.md R75 to R77) -/

/-- The word address is half the byte address, in sixteen bits (20_memory.md R75). -/
theorem addrWord_eq_ofNat (a : ByteAddress) : addrWord a = BitVec.ofNat 16 (a.toNat / 2) := by
  apply BitVec.eq_of_toNat_eq
  rw [addrWord, BitVec.extractLsb'_toNat, BitVec.toNat_ofNat, Nat.shiftRight_eq_div_pow]

/-- A byte address below 2^17 is on chip. -/
theorem addrOnChip_of_lt {a : ByteAddress} (h : a.toNat < 2 ^ 17) : addrOnChip a = true := by
  refine beq_iff_eq.mpr (BitVec.eq_of_toNat_eq ?_)
  rw [BitVec.extractLsb'_toNat, Nat.shiftRight_eq_div_pow, Nat.div_eq_of_lt h]
  rfl

/-- A byte address of program RAM selects program RAM. -/
theorem regionOf_of_ramByte {p : Params} {a : ByteAddress} (h : p.ramByte a) : p.regionOf a = .programRam := by
  have hend := p.pramEnd.isLt
  have hchip : addrOnChip a = true := addrOnChip_of_lt (by omega)
  have hword : (addrWord a).toNat = a.toNat / 2 := by
    rw [addrWord_eq_ofNat, BitVec.toNat_ofNat, Nat.mod_eq_of_lt (by omega)]
  have hin : p.inPram (addrWord a) = true := decide_eq_true (by omega)
  rw [Params.regionOf, hchip, hin]
  rfl

/-- In `t` DATA was written from `s` to the program-RAM word that ADDR selects; the form that counts moves ADDRL on. -/
def WritesAddressed (s t : State) : Prop :=
  ∃ lo, t = { pmemWrite s.advance (addrWord s.addr) s.dataWord with addrl := lo }

/-- `iwrite` with ADDR in program RAM writes the word. -/
theorem execIwrite_writesAddressed {s t : State} (hr : s.params.regionOf s.addr = .programRam)
    (h : execIwrite s = .next t) : WritesAddressed s t := by
  unfold execIwrite at h
  cases hg : accessGuard false s with
  | some e => simp [hg] at h
  | none =>
    simp only [hg, hr] at h
    split at h
    · cases h
    · cases h
      exact ⟨_, rfl⟩

/-- `iwritei` with ADDR in program RAM writes the word, and counts ADDRL on. -/
theorem execIwritei_writesAddressed {s t : State} (hr : s.params.regionOf s.addr = .programRam)
    (h : execIwritei s = .next t) : WritesAddressed s t := by
  unfold execIwritei at h
  cases hg : accessGuard false s with
  | some e => simp [hg] at h
  | none =>
    simp only [hg, hr] at h
    split at h
    · cases h
    · exact ⟨_, (stepAddrl_eq_next.mp h).2⟩

/-- A program-RAM write reads back at its word, and every other word of program memory reads as before. -/
theorem pmemRead_pmemWrite {s : State} (hwf : Memory.wf Layout.unlistedRam s.pram) {wa : Word}
    (hin : s.params.inPram wa = true) (v wb : Word) :
    pmemRead (pmemWrite s wa v) wb = if wb = wa then .ok v else pmemRead s wb := by
  rw [pmemWrite_inPram hin]
  split_ifs with h
  · subst h
    exact pmemRead_eq_ok.mpr (.inl ⟨hin, (wordRead_wordWrite_same hwf wb v).symm⟩)
  · simp only [pmemRead, State.pramWord, wordRead_wordWrite_other hwf v h]
    rfl

/-- A read of program memory after the instruction is one after its write: pc and ADDRL play no part. -/
theorem WritesAddressed.pmemRead_eq {s t : State} (h : WritesAddressed s t) (wb : Word) :
    pmemRead t wb = pmemRead (pmemWrite s.advance (addrWord s.addr) s.dataWord) wb := by
  obtain ⟨lo, rfl⟩ := h
  rfl

/-- Settles O55: both forms write DATA at the word ADDR selects, and nothing else that a fetch reads. -/
theorem programRamWriteIsSeen : Obligations.ProgramRamWriteIsSeen := by
  intro s t hwf adr hram i hi h wb
  have hregion : s.params.regionOf s.addr = .programRam := regionOf_of_ramByte hram
  have hwrites : WritesAddressed s t := by
    simp only [List.mem_cons, List.not_mem_nil, or_false] at hi
    obtain rfl | rfl := hi
    · exact execIwrite_writesAddressed hregion h
    · exact execIwritei_writesAddressed hregion h
  have hword : addrWord s.addr = BitVec.ofNat 16 (adr.toNat / 2) := addrWord_eq_ofNat s.addr
  rw [hwrites.pmemRead_eq, pmemRead_pmemWrite (s := s.advance) hwf (inPram_of_regionOf hregion), hword]
  rfl

/-! ### Data memory over all instructions (20_memory.md R72) -/

/-- One store leaves every byte of data memory but the one at its address. -/
theorem StoresOnce.memRead_other {o : Option Word} {s t : State} (h : StoresOnce o s t)
    (hwf : Memory.wf Layout.unlistedRam s.data) {b : Nat} (hb : ∀ a, o = some a → b ≠ a.toNat) :
    memRead Layout.unlistedRam t.data b = memRead Layout.unlistedRam s.data b := by
  obtain hs | ⟨a, v, u, u', ho, hu, hw, ht⟩ := h
  · rw [hs.data]
  · rw [ht.data, ← hu.data]
    exact writeFile_memRead_other (by rwa [hu.data]) hw (hb a ho)

/-- Settles O58: an instruction leaves data memory whole, or makes one store, at its `storeAddress`. -/
theorem dataMemoryFrame : Obligations.DataMemoryFrame := by
  intro i s t hwf h b hb
  obtain ⟨hdata, -⟩ | hstore := exec_data_intEn_cases h
  · rw [hdata]
  · exact hstore.memRead_other hwf hb

end Sys2Proof.Machine
end

section
/-! Encoding (30_encoding.md): the value of each format's word, the decoder on each range of words, decode and encode as inverses (O1, O2),
the unassigned words (O4), the words of the spec (O3), the operand field and its address (O12), and SkipTarget (O34). -/

namespace Sys2Proof

/-! ### Fields of a word, as arithmetic on its value -/

theorem toNat_append_eq {n m : Nat} (x : BitVec n) (y : BitVec m) : (x ++ y).toNat = x.toNat * 2 ^ m + y.toNat := by
  rw [BitVec.toNat_append, ← Nat.shiftLeft_add_eq_or_of_lt y.isLt, Nat.shiftLeft_eq]

theorem toNat_field {n : Nat} (s m : Nat) (x : BitVec n) : (x.extractLsb' s m).toNat = x.toNat / 2 ^ s % 2 ^ m := by
  rw [BitVec.extractLsb'_toNat, Nat.shiftRight_eq_div_pow]

theorem field_eq_iff {n s m : Nat} {x : BitVec n} {y : BitVec m} :
    x.extractLsb' s m = y ↔ x.toNat / 2 ^ s % 2 ^ m = y.toNat := by
  rw [← BitVec.toNat_inj, toNat_field]

theorem bit_eq_true_iff {n i : Nat} {x : BitVec n} : x.getLsbD i = true ↔ x.toNat / 2 ^ i % 2 = 1 := by
  rw [BitVec.getLsbD, Nat.testBit_eq_decide_div_mod_eq, decide_eq_true_iff]

theorem bit_eq_false_iff {n i : Nat} {x : BitVec n} : x.getLsbD i = false ↔ x.toNat / 2 ^ i % 2 = 0 := by
  rw [← Bool.not_eq_true, bit_eq_true_iff]
  omega

/-! ### The operand field (30_encoding.md R103) -/

/-- The ranges of the nine bits: `(ip)`, a direct address, `offset(dp)`, `offset(sp)`. -/
theorem fileField_ranges (f : BitVec 9) :
    f.toNat = 0 ∨ (1 ≤ f.toNat ∧ f.toNat ≤ 0x0FF) ∨ (0x100 ≤ f.toNat ∧ f.toNat ≤ 0x17F) ∨ 0x180 ≤ f.toNat := by
  omega

theorem decodeFile_indirect {f : BitVec 9} (h : f.toNat = 0) : decodeFile f = .indirect :=
  if_pos (BitVec.eq_of_toNat_eq h)

theorem decodeFile_direct {f : BitVec 9} (hlo : 1 ≤ f.toNat) (hhi : f.toNat ≤ 0x0FF) :
    decodeFile f = .direct (f.extractLsb' 0 8) := by
  simp only [decodeFile, BitVec.toNat_eq, bit_eq_false_iff, BitVec.ofNat_eq_ofNat, BitVec.toNat_ofNat]
  rw [if_neg (by omega), if_pos (by omega)]

theorem decodeFile_dpOffset {f : BitVec 9} (hlo : 0x100 ≤ f.toNat) (hhi : f.toNat ≤ 0x17F) :
    decodeFile f = .dpOffset (f.extractLsb' 0 7) := by
  simp only [decodeFile, BitVec.toNat_eq, bit_eq_false_iff, BitVec.ofNat_eq_ofNat, BitVec.toNat_ofNat]
  rw [if_neg (by omega), if_neg (by omega), if_pos (by omega)]

theorem decodeFile_spOffset {f : BitVec 9} (hlo : 0x180 ≤ f.toNat) : decodeFile f = .spOffset (f.extractLsb' 0 7) := by
  have hf := f.isLt
  simp only [decodeFile, BitVec.toNat_eq, bit_eq_false_iff, BitVec.ofNat_eq_ofNat, BitVec.toNat_ofNat]
  rw [if_neg (by omega), if_neg (by omega), if_neg (by omega)]

theorem encodeFile_direct_toNat (a : BitVec 8) : (encodeFile (.direct a)).toNat = a.toNat :=
  (toNat_append_eq 0b0#1 a).trans (Nat.zero_add _)

theorem encodeFile_dpOffset_toNat (o : BitVec 7) : (encodeFile (.dpOffset o)).toNat = 0x100 + o.toNat :=
  toNat_append_eq 0b10#2 o

theorem encodeFile_spOffset_toNat (o : BitVec 7) : (encodeFile (.spOffset o)).toNat = 0x180 + o.toNat :=
  toNat_append_eq 0b11#2 o

/-- A well-formed operand is decoded from its field. -/
theorem decodeFile_encodeFile {f : FileOperand} (h : f.wellFormed = true) : decodeFile (encodeFile f) = f := by
  cases f with
  | indirect => rfl
  | direct a =>
    have hv := encodeFile_direct_toNat a
    have ha : a.toNat ≠ 0 := fun h0 => bne_iff_ne.mp h (BitVec.eq_of_toNat_eq h0)
    rw [decodeFile_direct (by omega) (by omega), (field_eq_iff (y := a)).mpr (by omega)]
  | dpOffset o =>
    have hv := encodeFile_dpOffset_toNat o
    rw [decodeFile_dpOffset (by omega) (by omega), (field_eq_iff (y := o)).mpr (by omega)]
  | spOffset o =>
    have hv := encodeFile_spOffset_toNat o
    rw [decodeFile_spOffset (by omega), (field_eq_iff (y := o)).mpr (by omega)]

/-- The field of the operand that nine bits decode to is those bits. -/
theorem encodeFile_decodeFile (f : BitVec 9) : encodeFile (decodeFile f) = f := by
  apply BitVec.eq_of_toNat_eq
  obtain h0 | ⟨hlo, hhi⟩ | ⟨hlo, hhi⟩ | hlo := fileField_ranges f
  · rw [decodeFile_indirect h0, h0]
    rfl
  · rw [decodeFile_direct hlo hhi, encodeFile_direct_toNat, toNat_field]
    omega
  · rw [decodeFile_dpOffset hlo hhi, encodeFile_dpOffset_toNat, toNat_field]
    omega
  · rw [decodeFile_spOffset hlo, encodeFile_spOffset_toNat, toNat_field]
    omega

theorem decodeFile_wellFormed (f : BitVec 9) : (decodeFile f).wellFormed = true := by
  obtain h0 | ⟨hlo, hhi⟩ | ⟨hlo, hhi⟩ | hlo := fileField_ranges f
  · rw [decodeFile_indirect h0]
    rfl
  · rw [decodeFile_direct hlo hhi]
    refine bne_iff_ne.mpr fun ha => ?_
    have hz : f.toNat / 2 ^ 0 % 2 ^ 8 = 0 := field_eq_iff.mp ha
    omega
  · rw [decodeFile_dpOffset hlo hhi]
    rfl
  · rw [decodeFile_spOffset hlo]
    rfl

/-! ### The value of each format's word (30_encoding.md R101) -/

theorem fileWord_toNat (op : BitVec 7) (f : FileOperand) :
    (fileWord op f).toNat = op.toNat * 0x200 + (encodeFile f).toNat :=
  toNat_append_eq op (encodeFile f)

theorem literalWord_toNat (op : BitVec 4) (k : BitVec 8) :
    (literalWord op k).toNat = 0x7000 + op.toNat * 0x100 + k.toNat := by
  have hop := toNat_append_eq 0b0111#4 op
  have hword : (literalWord op k).toNat = _ := toNat_append_eq (0b0111#4 ++ op) k
  rw [hword, hop, BitVec.toNat_ofNat]
  omega

theorem bitWord_toNat (op : BitVec 2) (b : BitVec 3) (f : FileOperand) :
    (bitWord op b f).toNat = 0x8000 + op.toNat * 0x1000 + b.toNat * 0x200 + (encodeFile f).toNat := by
  have hop := toNat_append_eq 0b10#2 op
  have hbit := toNat_append_eq (0b10#2 ++ op) b
  have hword : (bitWord op b f).toNat = _ := toNat_append_eq (0b10#2 ++ op ++ b) (encodeFile f)
  rw [hword, hbit, hop, BitVec.toNat_ofNat]
  omega

theorem miscWord_toNat (row : BitVec 5) (n : BitVec 3) : (miscWord row n).toNat = row.toNat * 8 + n.toNat := by
  have hrow := toNat_append_eq 0x00#8 row
  have hword : (miscWord row n).toNat = _ := toNat_append_eq (0x00#8 ++ row) n
  rw [hword, hrow, BitVec.toNat_ofNat]
  omega

theorem encode_jmp_toNat (k : BitVec 13) : (encode (.jmp k)).toNat = 0xE000 + k.toNat := toNat_append_eq 0b111#3 k

theorem encode_call_toNat (k : BitVec 13) : (encode (.call k)).toNat = 0xC000 + k.toNat := toNat_append_eq 0b110#3 k

theorem encode_speed_toNat (n : BitVec 8) : (encode (.speed n)).toNat = 0x0100 + n.toNat := toNat_append_eq 0x01#8 n

/-! ### The decoder on each format's range of words (30_encoding.md R106) -/

/-- The ranges of the formats: MISC, `speed`, FR, LIT, BIT, `call`, `jmp`. -/
theorem word_ranges (w : Word) : w.toNat < 0x0100 ∨ (0x0100 ≤ w.toNat ∧ w.toNat < 0x0200) ∨
    (0x0200 ≤ w.toNat ∧ w.toNat < 0x7000) ∨ (0x7000 ≤ w.toNat ∧ w.toNat < 0x8000) ∨
    (0x8000 ≤ w.toNat ∧ w.toNat < 0xC000) ∨ (0xC000 ≤ w.toNat ∧ w.toNat < 0xE000) ∨ 0xE000 ≤ w.toNat := by
  omega

section
variable {w : Word}

theorem decode_of_misc (hhi : w.toNat < 0x0100) : decode w = decodeMisc (w.extractLsb' 3 5) (w.extractLsb' 0 3) := by
  simp only [decode, field_eq_iff, bit_eq_true_iff, BitVec.toNat_ofNat]
  rw [if_neg (by omega), if_neg (by omega), if_neg (by omega), if_pos (by omega), if_neg (by omega)]

theorem decode_of_speed (hlo : 0x0100 ≤ w.toNat) (hhi : w.toNat < 0x0200) :
    decode w = .ok (.speed (w.extractLsb' 0 8)) := by
  simp only [decode, field_eq_iff, bit_eq_true_iff, BitVec.toNat_ofNat]
  rw [if_neg (by omega), if_neg (by omega), if_neg (by omega), if_pos (by omega), if_pos (by omega)]

theorem decode_of_file (hlo : 0x0200 ≤ w.toNat) (hhi : w.toNat < 0x7000) :
    decode w = decodeFileFormat (w.extractLsb' 9 7) (decodeFile (w.extractLsb' 0 9)) := by
  simp only [decode, field_eq_iff, bit_eq_true_iff, BitVec.toNat_ofNat]
  rw [if_neg (by omega), if_neg (by omega), if_neg (by omega), if_neg (by omega)]

theorem decode_of_literal (hlo : 0x7000 ≤ w.toNat) (hhi : w.toNat < 0x8000) :
    decode w = decodeLiteralFormat (w.extractLsb' 8 4) (w.extractLsb' 0 8) := by
  simp only [decode, field_eq_iff, bit_eq_true_iff, BitVec.toNat_ofNat]
  rw [if_neg (by omega), if_neg (by omega), if_pos (by omega)]

theorem decode_of_bit (hlo : 0x8000 ≤ w.toNat) (hhi : w.toNat < 0xC000) :
    decode w = .ok (decodeBitFormat (w.extractLsb' 12 2) (w.extractLsb' 9 3) (decodeFile (w.extractLsb' 0 9))) := by
  simp only [decode, field_eq_iff, bit_eq_true_iff, BitVec.toNat_ofNat]
  rw [if_neg (by omega), if_pos (by omega)]

theorem decode_of_call (hlo : 0xC000 ≤ w.toNat) (hhi : w.toNat < 0xE000) :
    decode w = .ok (.call (w.extractLsb' 0 13)) := by
  simp only [decode, field_eq_iff, bit_eq_true_iff, BitVec.toNat_ofNat]
  rw [if_pos (by omega), if_neg (by omega)]

theorem decode_of_jmp (hlo : 0xE000 ≤ w.toNat) : decode w = .ok (.jmp (w.extractLsb' 0 13)) := by
  have hw := w.isLt
  simp only [decode, field_eq_iff, bit_eq_true_iff, BitVec.toNat_ofNat]
  rw [if_pos (by omega), if_pos (by omega)]

/-! ### A word of a format's range is the format's word of its fields -/

theorem miscWord_fields (hhi : w.toNat < 0x0100) : miscWord (w.extractLsb' 3 5) (w.extractLsb' 0 3) = w := by
  apply BitVec.eq_of_toNat_eq
  rw [miscWord_toNat, toNat_field, toNat_field]
  omega

theorem encode_speed_fields (hlo : 0x0100 ≤ w.toNat) (hhi : w.toNat < 0x0200) :
    encode (.speed (w.extractLsb' 0 8)) = w := by
  apply BitVec.eq_of_toNat_eq
  rw [encode_speed_toNat, toNat_field]
  omega

theorem fileWord_fields (w : Word) : fileWord (w.extractLsb' 9 7) (decodeFile (w.extractLsb' 0 9)) = w := by
  apply BitVec.eq_of_toNat_eq
  rw [fileWord_toNat, encodeFile_decodeFile, toNat_field, toNat_field]
  omega

theorem literalWord_fields (hlo : 0x7000 ≤ w.toNat) (hhi : w.toNat < 0x8000) :
    literalWord (w.extractLsb' 8 4) (w.extractLsb' 0 8) = w := by
  apply BitVec.eq_of_toNat_eq
  rw [literalWord_toNat, toNat_field, toNat_field]
  omega

theorem bitWord_fields (hlo : 0x8000 ≤ w.toNat) (hhi : w.toNat < 0xC000) :
    bitWord (w.extractLsb' 12 2) (w.extractLsb' 9 3) (decodeFile (w.extractLsb' 0 9)) = w := by
  apply BitVec.eq_of_toNat_eq
  rw [bitWord_toNat, encodeFile_decodeFile, toNat_field, toNat_field, toNat_field]
  omega

theorem encode_call_fields (hlo : 0xC000 ≤ w.toNat) (hhi : w.toNat < 0xE000) :
    encode (.call (w.extractLsb' 0 13)) = w := by
  apply BitVec.eq_of_toNat_eq
  rw [encode_call_toNat, toNat_field]
  omega

theorem encode_jmp_fields (hlo : 0xE000 ≤ w.toNat) : encode (.jmp (w.extractLsb' 0 13)) = w := by
  apply BitVec.eq_of_toNat_eq
  rw [encode_jmp_toNat, toNat_field]
  omega

end

/-! ### The opcode map of each format (30_encoding.md R108, R109) -/

theorem ofNat_toNat_self {n : Nat} (x : BitVec n) : BitVec.ofNat n x.toNat = x := by
  rw [BitVec.ofNat_toNat, BitVec.setWidth_eq]

/-- What an FR opcode decodes to has that opcode and operand. -/
theorem decodeFileFormat_eq_ok {op : BitVec 7} {f : FileOperand} {i : Instr} (h : decodeFileFormat op f = .ok i) :
    encode i = fileWord op f ∧ i.wellFormed = f.wellFormed := by
  rw [← ofNat_toNat_self op]
  unfold decodeFileFormat at h
  split at h
  case h_46 => cases h
  all_goals
    rename_i hop
    cases h
    rw [hop]
    exact ⟨rfl, rfl⟩

/-- The FR opcodes without an instruction; opcode 0 is the MISC format's. -/
theorem decodeFileFormat_eq_error {op : BitVec 7} {f : FileOperand} : (∃ why, decodeFileFormat op f = .error why) ↔
    op.toNat = 0 ∨ op.toNat = 0b0101001 ∨ op.toNat = 0b0101011 ∨ 0b0110000 ≤ op.toNat := by
  unfold decodeFileFormat
  split
  case h_46 =>
    simp only [imp_false] at *
    exact iff_of_true ⟨_, rfl⟩ (by omega)
  all_goals exact iff_of_false (fun ⟨_, h⟩ => nomatch h) (by omega)

/-- What a LIT opcode decodes to has that opcode and literal. -/
theorem decodeLiteralFormat_eq_ok {op : BitVec 4} {k : BitVec 8} {i : Instr} (h : decodeLiteralFormat op k = .ok i) :
    encode i = literalWord op k ∧ i.wellFormed = true := by
  rw [← ofNat_toNat_self op]
  unfold decodeLiteralFormat at h
  split at h
  case h_16 => cases h
  all_goals
    rename_i hop
    cases h
    rw [hop]
    exact ⟨rfl, rfl⟩

/-- The LIT opcode without an instruction. -/
theorem decodeLiteralFormat_eq_error {op : BitVec 4} {k : BitVec 8} :
    (∃ why, decodeLiteralFormat op k = .error why) ↔ op.toNat = 0b0101 := by
  unfold decodeLiteralFormat
  split
  case h_16 =>
    simp only [imp_false] at *
    exact iff_of_true ⟨_, rfl⟩ (by omega)
  all_goals exact iff_of_false (fun ⟨_, h⟩ => nomatch h) (by omega)

/-- Each BIT opcode decodes to an instruction with that opcode, bit number and operand. -/
theorem encode_decodeBitFormat (op : BitVec 2) (b : BitVec 3) (f : FileOperand) :
    encode (decodeBitFormat op b f) = bitWord op b f ∧ (decodeBitFormat op b f).wellFormed = f.wellFormed := by
  have hop : op.toNat = 0 ∨ op.toNat = 1 ∨ op.toNat = 2 ∨ op.toNat = 3 := by omega
  rw [← ofNat_toNat_self op]
  obtain h | h | h | h := hop <;> rw [h] <;> exact ⟨rfl, rfl⟩

/-- What a MISC row decodes to has that row and those low bits. -/
theorem decodeMisc_eq_ok {row : BitVec 5} {n : BitVec 3} {i : Instr} (h : decodeMisc row n = .ok i) :
    encode i = miscWord row n ∧ i.wellFormed = true := by
  unfold decodeMisc at h
  split at h
  case h_17 => cases h
  all_goals
    cases h
    rw [← ofNat_toNat_self row, ← ofNat_toNat_self n]
    simp [encode, Instr.wellFormed, *]

theorem decodeMisc_isOk_iff : ∀ (row : BitVec 5) (n : BitVec 3),
    (decodeMisc row n).isOk = true ↔ row.toNat * 8 + n.toNat < 0x1E := by
  decide

/-- The MISC words without an instruction are those from 0x001E on. -/
theorem decodeMisc_eq_error {row : BitVec 5} {n : BitVec 3} :
    (∃ why, decodeMisc row n = .error why) ↔ 0x1E ≤ row.toNat * 8 + n.toNat := by
  rw [← not_lt, ← decodeMisc_isOk_iff]
  cases decodeMisc row n with
  | error why => exact iff_of_true ⟨why, rfl⟩ Bool.false_ne_true
  | ok i => exact iff_of_false (fun ⟨_, h⟩ => nomatch h) (not_not_intro rfl)

/-! ### The decoder on each format's words -/

/-- An assigned opcode lies in the FR range, so the decoder reads its word by the FR map. -/
theorem decode_fileWord {op : BitVec 7} {f : FileOperand} {i : Instr} (hf : f.wellFormed = true)
    (hi : decodeFileFormat op f = .ok i) : decode (fileWord op f) = .ok i := by
  have hop := mt decodeFileFormat_eq_error.mpr (fun ⟨_, he⟩ => nomatch hi.symm.trans he)
  have hv := fileWord_toNat op f
  rw [decode_of_file (by omega) (by omega), (field_eq_iff (y := op)).mpr (by omega),
    (field_eq_iff (y := encodeFile f)).mpr (by omega), decodeFile_encodeFile hf, hi]

theorem decode_literalWord (op : BitVec 4) (k : BitVec 8) : decode (literalWord op k) = decodeLiteralFormat op k := by
  have hv := literalWord_toNat op k
  rw [decode_of_literal (by omega) (by omega), (field_eq_iff (y := op)).mpr (by omega),
    (field_eq_iff (y := k)).mpr (by omega)]

theorem decode_bitWord (op : BitVec 2) (b : BitVec 3) {f : FileOperand} (hf : f.wellFormed = true) :
    decode (bitWord op b f) = .ok (decodeBitFormat op b f) := by
  have hv := bitWord_toNat op b f
  rw [decode_of_bit (by omega) (by omega), (field_eq_iff (y := op)).mpr (by omega),
    (field_eq_iff (y := b)).mpr (by omega), (field_eq_iff (y := encodeFile f)).mpr (by omega), decodeFile_encodeFile hf]

theorem decode_miscWord (row : BitVec 5) (n : BitVec 3) : decode (miscWord row n) = decodeMisc row n := by
  have hv := miscWord_toNat row n
  rw [decode_of_misc (by omega), (field_eq_iff (y := row)).mpr (by omega), (field_eq_iff (y := n)).mpr (by omega)]

theorem decode_encode_jmp (k : BitVec 13) : decode (encode (.jmp k)) = .ok (.jmp k) := by
  have hv := encode_jmp_toNat k
  rw [decode_of_jmp (by omega), (field_eq_iff (y := k)).mpr (by omega)]

theorem decode_encode_call (k : BitVec 13) : decode (encode (.call k)) = .ok (.call k) := by
  have hv := encode_call_toNat k
  rw [decode_of_call (by omega) (by omega), (field_eq_iff (y := k)).mpr (by omega)]

theorem decode_encode_speed (n : BitVec 8) : decode (encode (.speed n)) = .ok (.speed n) := by
  have hv := encode_speed_toNat n
  rw [decode_of_speed (by omega) (by omega), (field_eq_iff (y := n)).mpr (by omega)]

/-! ### Decode and encode are inverses -/

/-- The word of a well-formed instruction decodes to it, format by format. -/
theorem decode_encode : ∀ i : Instr, i.wellFormed = true → decode (encode i) = .ok i
  | .movFrW _, h | .cmpWFr _, h | .clrFr _, h | .subWFr _, h | .subFrW _, h | .decWFr _, h | .decFr _, h | .orWFr _, h
  | .orFrW _, h | .andWFr _, h | .andFrW _, h | .xorWFr _, h | .xorFrW _, h | .addWFr _, h | .addFrW _, h | .movWFr _, h
  | .testFr _, h | .notWFr _, h | .notFr _, h | .incWFr _, h | .incFr _, h | .decszWFr _, h | .decszFr _, h | .rrWFr _, h
  | .rrFr _, h | .rlWFr _, h | .rlFr _, h | .swapWFr _, h | .swapFr _, h | .incszWFr _, h | .incszFr _, h | .csneWFr _, h
  | .cseWFr _, h | .pushFr _, h | .popFr _, h | .subcWFr _, h | .subcFrW _, h | .decsnzWFr _, h | .decsnzFr _, h
  | .muluWFr _, h | .mulsWFr _, h | .incsnzWFr _, h | .incsnzFr _, h | .addcWFr _, h | .addcFrW _, h => decode_fileWord h rfl
  | .loadh _, _ | .loadl _, _ | .muluWLit _, _ | .mulsWLit _, _ | .pushLit _, _ | .csneWLit _, _ | .cseWLit _, _
  | .retw _, _ | .cmpWLit _, _ | .subWLit _, _ | .addWLit _, _ | .movWLit _, _ | .orWLit _, _ | .andWLit _, _
  | .xorWLit _, _ => decode_literalWord _ _
  | .clrbFrBit _ _, h | .setbFrBit _ _, h | .snbFrBit _ _, h | .sbFrBit _ _, h => decode_bitWord _ _ h
  | .call k, _ => decode_encode_call k
  | .jmp k, _ => decode_encode_jmp k
  | .nop, _ | .brk, _ | .retnp, _ | .ferase, _ | .cwdt, _ | .brkx, _ | .int, _ | .ret, _ | .reti _, _ | .page _, _
  | .iwrite, _ | .iread, _ | .fwrite, _ | .fread, _ | .iwritei, _ | .ireadi, _ => decode_miscWord _ _
  | .speed n, _ => decode_encode_speed n

/-- A word decodes to a well-formed instruction whose word it is, format by format. -/
theorem encode_of_decode {w : Word} {i : Instr} (h : decode w = .ok i) : i.wellFormed = true ∧ encode i = w := by
  obtain hhi | ⟨hlo, hhi⟩ | ⟨hlo, hhi⟩ | ⟨hlo, hhi⟩ | ⟨hlo, hhi⟩ | ⟨hlo, hhi⟩ | hlo := word_ranges w
  · rw [decode_of_misc hhi] at h
    obtain ⟨henc, hwf⟩ := decodeMisc_eq_ok h
    exact ⟨hwf, henc.trans (miscWord_fields hhi)⟩
  · rw [decode_of_speed hlo hhi] at h
    cases h
    exact ⟨rfl, encode_speed_fields hlo hhi⟩
  · rw [decode_of_file hlo hhi] at h
    obtain ⟨henc, hwf⟩ := decodeFileFormat_eq_ok h
    exact ⟨hwf.trans (decodeFile_wellFormed _), henc.trans (fileWord_fields w)⟩
  · rw [decode_of_literal hlo hhi] at h
    obtain ⟨henc, hwf⟩ := decodeLiteralFormat_eq_ok h
    exact ⟨hwf, henc.trans (literalWord_fields hlo hhi)⟩
  · rw [decode_of_bit hlo hhi] at h
    cases h
    obtain ⟨henc, hwf⟩ := encode_decodeBitFormat (w.extractLsb' 12 2) (w.extractLsb' 9 3) (decodeFile (w.extractLsb' 0 9))
    exact ⟨hwf.trans (decodeFile_wellFormed _), henc.trans (bitWord_fields hlo hhi)⟩
  · rw [decode_of_call hlo hhi] at h
    cases h
    exact ⟨rfl, encode_call_fields hlo hhi⟩
  · rw [decode_of_jmp hlo] at h
    cases h
    exact ⟨rfl, encode_jmp_fields hlo⟩

/-- Decoding is the inverse of encoding on the well-formed instructions. -/
theorem decode_eq_ok_iff {w : Word} {i : Instr} : decode w = .ok i ↔ i.wellFormed = true ∧ encode i = w :=
  ⟨encode_of_decode, fun ⟨hwf, henc⟩ => henc ▸ decode_encode i hwf⟩

/-- Settles O1: each constructor's word, by its format. -/
theorem decodeInvertsEncode : Obligations.DecodeInvertsEncode := decode_encode

/-- Settles O2: each range of words, by its format. -/
theorem encodeInvertsDecode : Obligations.EncodeInvertsDecode := fun _ _ => encode_of_decode

/-- Settles O3: each word is the encoding of a well-formed instruction. -/
theorem specWordsDecode : Obligations.SpecWordsDecode := by
  refine ⟨?_, ?_, ?_, ?_, ?_, ?_, ?_, ?_, ?_, ?_, ?_, ?_, ?_, ?_⟩ <;>
    exact decode_eq_ok_iff.mpr ⟨rfl, rfl⟩

/-! ### The unassigned words (30_encoding.md R109) -/

/-- The words without a decoding, format by format. -/
theorem decode_eq_error_iff (w : Word) : (∃ why, decode w = .error why) ↔
    ((0x001E ≤ w.toNat ∧ w.toNat ≤ 0x00FF) ∨ (0x5200 ≤ w.toNat ∧ w.toNat ≤ 0x53FF) ∨
     (0x5600 ≤ w.toNat ∧ w.toNat ≤ 0x57FF) ∨ (0x6000 ≤ w.toNat ∧ w.toNat ≤ 0x6FFF) ∨
     (0x7500 ≤ w.toNat ∧ w.toNat ≤ 0x75FF)) := by
  obtain hhi | ⟨hlo, hhi⟩ | ⟨hlo, hhi⟩ | ⟨hlo, hhi⟩ | ⟨hlo, hhi⟩ | ⟨hlo, hhi⟩ | hlo := word_ranges w
  · rw [decode_of_misc hhi, decodeMisc_eq_error, toNat_field, toNat_field]
    omega
  · rw [decode_of_speed hlo hhi]
    exact iff_of_false (fun ⟨_, h⟩ => nomatch h) (by omega)
  · rw [decode_of_file hlo hhi, decodeFileFormat_eq_error, toNat_field]
    omega
  · rw [decode_of_literal hlo hhi, decodeLiteralFormat_eq_error, toNat_field]
    omega
  · rw [decode_of_bit hlo hhi]
    exact iff_of_false (fun ⟨_, h⟩ => nomatch h) (by omega)
  · rw [decode_of_call hlo hhi]
    exact iff_of_false (fun ⟨_, h⟩ => nomatch h) (by omega)
  · rw [decode_of_jmp hlo]
    exact iff_of_false (fun ⟨_, h⟩ => nomatch h) (by omega)

/-! ### The words that extend a skip (30_encoding.md R110) -/

/-- Under a mask of ones above zeros, the words of a value are those with it as their high field. -/
theorem and_highMask_eq_iff {n m : Nat} {w : BitVec (n + m)} {x : BitVec n} :
    w &&& (BitVec.allOnes n ++ 0#m) = x ++ 0#m ↔ ∃ y : BitVec m, x ++ y = w := by
  constructor
  · intro h
    have hw : w.extractLsb' m n ++ w.extractLsb' 0 m = w := BitVec.extractLsb'_append_extractLsb'
    rw [← hw, append_and_highMask, BitVec.append_left_inj] at h
    exact ⟨_, h ▸ hw⟩
  · rintro ⟨y, rfl⟩
    exact append_and_highMask x y

/-- `page`, `loadh`, `loadl` and `breakx`. -/
def Instr.ExtendsSkip (i : Instr) : Prop :=
  (∃ p, i = .page p) ∨ (∃ k, i = .loadh k) ∨ (∃ k, i = .loadl k) ∨ i = .brkx

end Sys2Proof

namespace Sys2Proof.Machine

/-- A fetched word that does not decode is refused. -/
theorem runFetched_of_reject {s : State} {w : Word} {why : DecodeReject} (hf : fetch s = .ok w)
    (hd : decode w = .error why) : runFetched s = .refused (.unassignedOpcode why) := by
  simp only [runFetched, hf, hd]

/-- Settles O4: the unassigned words format by format, and the refusal where the step fetches one. -/
theorem unassignedWordsAreRefused : Obligations.UnassignedWordsAreRefused := by
  refine ⟨decode_eq_error_iff, fun s w why hr hb hi hf hd => ?_⟩
  rw [step_eq_runFetched hr hb hi, runFetched_of_reject hf hd]
  rfl

/-! ### EA(f) (30_encoding.md R104) -/

/-- The low bits of the field, extended to an address. -/
theorem lowField_zeroExtend (f : BitVec 9) (m : Nat) :
    (f.extractLsb' 0 m).zeroExtend 16 = BitVec.ofNat 16 (f.toNat % 2 ^ m) := by
  apply BitVec.eq_of_toNat_eq
  rw [BitVec.zeroExtend, BitVec.toNat_setWidth, toNat_field, BitVec.toNat_ofNat, Nat.pow_zero, Nat.div_one]

/-- An offset field's address: the sum with the field modulo 128, when it is at least 0x20. -/
theorem offsetAddress_field (base : Word) (f : BitVec 9) : offsetAddress base (f.extractLsb' 0 7) =
    if (base + BitVec.ofNat 16 (f.toNat % 128)).toNat < 0x20 then .error .offsetBelow20
    else .ok (base + BitVec.ofNat 16 (f.toNat % 128)) := by
  rw [offsetAddress, lowField_zeroExtend]
  rfl

/-- A direct field's address is its value. -/
theorem effectiveAddress_direct_field {f : BitVec 9} (hhi : f.toNat ≤ 0x0FF) (s : State) :
    effectiveAddress (.direct (f.extractLsb' 0 8)) s = .ok (BitVec.ofNat 16 f.toNat) := by
  rw [effectiveAddress, lowField_zeroExtend, Nat.mod_eq_of_lt (by omega)]

/-- Settles O12: the mode of each range of the field, and the address of that mode. -/
theorem effectiveAddressRule : Obligations.EffectiveAddressRule := by
  intro f s
  refine ⟨fun h0 => ?_, fun hlo hhi => ?_, fun hlo hhi => ?_, fun hlo => ?_⟩
  · rw [decodeFile_indirect h0]
    rfl
  · rw [decodeFile_direct hlo hhi]
    exact effectiveAddress_direct_field hhi s
  · rw [decodeFile_dpOffset hlo hhi]
    exact offsetAddress_field s.dp f
  · rw [decodeFile_spOffset hlo]
    exact offsetAddress_field s.sp f

/-! ### Extenders and SkipTarget (30_encoding.md R110, R111) -/

/-- The mask test of an extender, as the words of the four extenders. -/
theorem isExtender_iff_encode {w : Word} : isExtender w = true ↔
    (∃ n, encode (.page n) = w) ∨ (∃ k, encode (.loadh k) = w) ∨ (∃ k, encode (.loadl k) = w) ∨ encode .brkx = w := by
  have hpage : w &&& 0xFFF8 = 0x0010 ↔ ∃ n, encode (.page n) = w := and_highMask_eq_iff (n := 13) (m := 3) (x := 0x0002)
  have hloadh : w &&& 0xFF00 = 0x7000 ↔ ∃ k, encode (.loadh k) = w := and_highMask_eq_iff (n := 8) (m := 8) (x := 0x70)
  have hloadl : w &&& 0xFF00 = 0x7100 ↔ ∃ k, encode (.loadl k) = w := and_highMask_eq_iff (n := 8) (m := 8) (x := 0x71)
  have hbrkx : w = 0x0005 ↔ encode .brkx = w := eq_comm
  simp only [isExtender, Bool.or_eq_true, beq_iff_eq, or_assoc, hpage, hloadh, hloadl, hbrkx]

/-- The mask test and the decoder agree on what extends a skip. -/
theorem isExtender_iff_decode {w : Word} : isExtender w = true ↔ ∃ i, decode w = .ok i ∧ i.ExtendsSkip := by
  rw [isExtender_iff_encode]
  constructor
  · rintro (⟨n, rfl⟩ | ⟨k, rfl⟩ | ⟨k, rfl⟩ | rfl)
    · exact ⟨_, decode_encode _ rfl, .inl ⟨n, rfl⟩⟩
    · exact ⟨_, decode_encode _ rfl, .inr (.inl ⟨k, rfl⟩)⟩
    · exact ⟨_, decode_encode _ rfl, .inr (.inr (.inl ⟨k, rfl⟩))⟩
    · exact ⟨_, decode_encode _ rfl, .inr (.inr (.inr rfl))⟩
  · rintro ⟨i, hd, hi⟩
    obtain ⟨-, henc⟩ := encode_of_decode hd
    obtain ⟨n, rfl⟩ | ⟨k, rfl⟩ | ⟨k, rfl⟩ | rfl := hi
    · exact .inl ⟨n, henc⟩
    · exact .inr (.inl ⟨k, henc⟩)
    · exact .inr (.inr (.inl ⟨k, henc⟩))
    · exact .inr (.inr (.inr henc))

/-- Settles O34: the walk stops at the first word that is no extender. -/
theorem skipTargetRule : Obligations.SkipTargetRule := by
  rintro s n hn ⟨hrun, w, hw, hlast⟩
  refine skipWalk_eq_ok.mpr ⟨n, hn, rfl, fun j hj => ?_, w, hw, ?_⟩
  · obtain ⟨x, i, hx, hd, hi⟩ := hrun j hj
    exact ⟨x, hx, isExtender_iff_decode.mpr ⟨i, hd, hi⟩⟩
  · refine Bool.eq_false_iff.mpr fun hext => ?_
    obtain ⟨i, hd, hi⟩ := isExtender_iff_decode.mp hext
    obtain ⟨hpage, hloadh, hloadl, hbrkx⟩ := hlast i hd
    obtain ⟨n, rfl⟩ | ⟨k, rfl⟩ | ⟨k, rfl⟩ | rfl := hi
    · exact hpage n rfl
    · exact hloadh k rfl
    · exact hloadl k rfl
    · exact hbrkx rfl

end Sys2Proof.Machine
end

section
/-! Operands and logical instructions (40_logical.md): an operand that cannot be read stops its instruction (O16), and the results of
and, or, xor and not with their Z flag, into W (O17) and into a file register (O18). -/

namespace Sys2Proof.Machine

/-! ### Operands that cannot be read (40_logical.md R130) -/

/-- An operand without an effective address cannot be read. -/
theorem frRead_of_no_address {f : FileOperand} {e : Fault} {s : State} (h : effectiveAddress f s = .error e) :
    frRead f s = .error e := by
  rw [frRead, h, error_bind]

/-- A meaning that begins with its operand's read stops with it. -/
theorem stops_of_frRead {f : FileOperand} {e : Fault} {s : State} {i : Instr} {rest : Byte → Except Fault State}
    (hr : frRead f s = .error e) (hi : exec i s = settle (frRead f s >>= rest)) : exec i s = .fault e := by
  rw [hi, hr, error_bind]
  rfl

/-- A meaning that begins with its operand's address stops where there is none. -/
theorem stops_of_no_address {f : FileOperand} {e : Fault} {s : State} {i : Instr} {rest : Word → Except Fault State}
    (ha : effectiveAddress f s = .error e) (hi : exec i s = settle (effectiveAddress f s >>= rest)) : exec i s = .fault e := by
  rw [hi, ha, error_bind]
  rfl

/-- Taking the operand's address and then reading it is the operand's read: a meaning that does so and keeps the address for its
write stops with the read. -/
theorem stops_of_addressed_read {f : FileOperand} {e : Fault} {s : State} {i : Instr} {rest : Word → Byte → Except Fault State}
    (hr : frRead f s = .error e) (hi : exec i s = settle (effectiveAddress f s >>= fun a => readFile a s >>= rest a)) :
    exec i s = .fault e := by
  cases ha : effectiveAddress f s with
  | error e' =>
    rw [frRead_of_no_address ha] at hr
    cases hr
    exact stops_of_no_address ha hi
  | ok a =>
    rw [frRead_of_address ha] at hr
    rw [hi, ha, ok_bind, hr, error_bind]
    rfl

/-- PCL can be read in every state (10_state.md R23, R42). -/
theorem readFile_pcl_ne_error (s : State) (e : Fault) : readFile Layout.addrPcl s ≠ .error e := by
  obtain ⟨hread, -⟩ := readWriteFile_below (a := Layout.addrPcl) (by decide) (by decide) 0 s
  rw [hread]
  exact nofun

/-- A count-and-skip form refuses PCL before it reads, and what cannot be read is not PCL. -/
theorem countInFile_of_unreadable {f : FileOperand} {e : Fault} {s : State} {count : Byte → Byte} {cond : Byte → Bool}
    (hr : frRead f s = .error e) : countInFile f count cond s = .error e := by
  cases ha : effectiveAddress f s with
  | error e' =>
    rw [frRead_of_no_address ha] at hr
    cases hr
    rw [countInFile, ha, error_bind]
  | ok a =>
    rw [frRead_of_address ha] at hr
    have hpcl : a ≠ Layout.addrPcl := fun h => readFile_pcl_ne_error s e (h ▸ hr)
    rw [countInFile, ha, ok_bind, if_neg hpcl, hr, error_bind]

/-- Only the `offset(sp)` form of an operand is refused by `pop` before its address (44_data_movement.md R225). -/
theorem isSpOffset_eq_false {f : FileOperand} (h : ∀ o, f ≠ .spOffset o) : isSpOffset f = false := by
  cases f with
  | spOffset o => exact absurd rfl (h o)
  | indirect | direct _ | dpOffset _ => rfl

/-- A `pop` to an operand without an effective address has nowhere to store. -/
theorem popAddress_of_no_address {f : FileOperand} {e : Fault} {s : State} (hf : ∀ o, f ≠ .spOffset o)
    (ha : effectiveAddress f s = .error e) : popAddress f s = .error e := by
  rw [popAddress, isSpOffset_eq_false hf, ha]
  rfl

/-- Settles O16: each reading form begins with the operand's read, or with its address and then the read; a count-and-skip form looks
for PCL in between. -/
theorem unreadableOperandStops : Obligations.UnreadableOperandStops := by
  refine fun f b e s => ⟨fun hr => ?_, fun ha => ⟨stops_of_no_address ha rfl, stops_of_no_address ha rfl, fun hf => ?_⟩⟩
  · have reads {i : Instr} {rest : Byte → Except Fault State} (hi : exec i s = settle (frRead f s >>= rest)) :
        exec i s = .fault e := stops_of_frRead hr hi
    have updates {i : Instr} {rest : Word → Byte → Except Fault State}
        (hi : exec i s = settle (effectiveAddress f s >>= fun a => readFile a s >>= rest a)) : exec i s = .fault e :=
      stops_of_addressed_read hr hi
    have counts {i : Instr} {count : Byte → Byte} {cond : Byte → Bool} (hi : exec i s = settle (countInFile f count cond s)) :
        exec i s = .fault e := hi.trans (settle_eq_fault.mpr (countInFile_of_unreadable hr))
    simp only [List.forall_mem_cons]
    exact ⟨
      -- and, or, xor, not
      reads rfl, reads rfl, reads rfl, reads rfl, updates rfl, updates rfl, updates rfl, updates rfl,
      -- add, addc, sub, subc, cmp
      reads rfl, reads rfl, reads rfl, reads rfl, updates rfl, updates rfl, updates rfl, updates rfl, reads rfl,
      -- dec, inc, test
      reads rfl, reads rfl, updates rfl, updates rfl, updates rfl,
      -- rl, rr, swap, muls, mulu
      reads rfl, reads rfl, reads rfl, updates rfl, updates rfl, updates rfl, reads rfl, reads rfl,
      -- cse, csne
      reads rfl, reads rfl,
      -- decsz, decsnz, incsz, incsnz
      reads rfl, reads rfl, reads rfl, reads rfl, counts rfl, counts rfl, counts rfl, counts rfl,
      -- sb, snb, clrb, setb
      reads rfl, reads rfl, updates rfl, updates rfl,
      -- mov, push
      reads rfl, reads rfl, nofun⟩
  · exact settle_eq_fault.mpr (by rw [popAddress_of_no_address hf ha, error_bind])

/-! ### Results that write Z alone (40_logical.md R130) -/

/-- A literal form whose result writes Z alone: the result in W, Z from it, and nothing else but pc. -/
theorem zeroResult_ofLiteral {i : Instr} {r : Byte} {s : State} (hi : exec i s = .next (resultToW (zeroFlag r) s)) :
    exec i s = .next { s with pc := s.pc + 1, w := r, status := withZero s.status (decide (r = 0)) } :=
  hi.trans (congrArg _ (resultToW_zero r s))

/-- An `op W,fr` form whose result writes Z alone: the result in W, Z from it, and nothing else but pc. -/
theorem zeroResult_toW {f : FileOperand} {op : Byte → AluResult} {i : Instr} {v r : Byte} {s : State} (hv : frRead f s = .ok v)
    (hi : exec i s = settle (fileToW f op s)) (hop : op v = zeroFlag r) :
    exec i s = .next { s with pc := s.pc + 1, w := r, status := withZero s.status (decide (r = 0)) } :=
  fileToW_run hv hi (by rw [hop, resultToW_zero])

/-- An `op fr` or `op fr,W` form whose result writes Z alone, on an address other than STATUS: the result stored, Z from it. -/
theorem zeroResult_toFile {f : FileOperand} {op : Byte → AluResult} {i : Instr} {a : Word} {v r : Byte} {s : State}
    (ha : effectiveAddress f s = .ok a) (hv : readFile a s = .ok v) (hne : a ≠ Layout.addrStatus)
    (hi : exec i s = settle (updateFile f op s)) (hop : op v = zeroFlag r) :
    StoresAt i a r { s with pc := s.pc + 1, status := withZero s.status (decide (r = 0)) } s :=
  updateFile_stores ha hv hi (by rw [hop]; rfl) (by rw [hop, setFlags_zero]) (.inl hne) (fun h => absurd h hne) rfl

/-- The complement as the difference from 0xFF (40_logical.md R140, R141). -/
theorem zeroFlag_not (v : Byte) : zeroFlag (~~~v) = zeroFlag (0xFF - v) :=
  congrArg zeroFlag (BitVec.allOnes_sub_eq_not v).symm

/-- Settles O17: each form ends in a result that writes Z alone. -/
theorem logicalIntoW : Obligations.LogicalIntoW := by
  intro f k v s
  refine ⟨zeroResult_ofLiteral rfl, zeroResult_ofLiteral rfl, zeroResult_ofLiteral rfl, rfl, rfl, rfl, rfl, rfl, rfl, rfl,
    fun hv => ⟨?_, ?_, ?_, ?_⟩⟩
  · exact zeroResult_toW hv rfl rfl
  · exact zeroResult_toW hv rfl rfl
  · exact zeroResult_toW hv rfl rfl
  · exact zeroResult_toW hv rfl (zeroFlag_not v)

/-- Settles O18: each form updates one address with a result that writes Z alone; STATUS refuses every flag writer. -/
theorem logicalIntoFile : Obligations.LogicalIntoFile := by
  refine fun f a v s ha hv => ⟨fun hne => ⟨?_, ?_, ?_, ?_⟩, fun hst => ?_⟩
  · exact zeroResult_toFile ha hv hne rfl rfl
  · exact zeroResult_toFile ha hv hne rfl rfl
  · exact zeroResult_toFile ha hv hne rfl rfl
  · exact zeroResult_toFile ha hv hne rfl (zeroFlag_not v)
  · simp only [List.forall_mem_cons]
    exact ⟨updateFile_status ha hv rfl rfl hst, updateFile_status ha hv rfl rfl hst, updateFile_status ha hv rfl rfl hst,
      updateFile_status ha hv rfl rfl hst, nofun⟩

end Sys2Proof.Machine
end

section
/-! Arithmetic and shifts (41_arithmetic_shift.md): the results of each form as a value and the STATUS after it (counts, sums, differences,
rotates, products), then the forms with destination W (O19, O22, O23, O25, O26, O29), those with destination `fr` (O20, O21, O24, O27, O30),
and those that write flags or a named register only (O28, O32, O33). -/

namespace Sys2Proof.Machine

/-! ### Counts (41_arithmetic_shift.md R165 to R169) -/

/-- One less, as a sum modulo 256. -/
theorem byte_sub_one (v : Byte) : v - 1 = BitVec.ofNat 8 (v.toNat + 255) := by
  bv_omega

/-- One more, as a sum modulo 256. -/
theorem byte_add_one (v : Byte) : v + 1 = BitVec.ofNat 8 (v.toNat + 1) := by
  bv_omega

/-! ### Differences (41_arithmetic_shift.md R151) -/

/-- Without a borrow-in: the eight bits, the inverted borrows, and Z where the operands are equal. -/
theorem subFlags_noBorrow (m w st : Byte) :
    (subFlags m w false).value = BitVec.ofInt 8 ((m.toNat : Int) - w.toNat) ∧
    (subFlags m w false).statusAfter st =
      withFlags st (decide (w.toNat ≤ m.toNat)) (decide (w.toNat % 16 ≤ m.toNat % 16)) (decide (m = w)) := by
  obtain ⟨hval, hst⟩ := subFlags_spec m w st false
  have hz : (w.toNat + false.toNat) % 256 = m.toNat ↔ m = w := by
    rw [Bool.toNat_false, Nat.add_zero, Nat.mod_eq_of_lt w.isLt, eq_comm, BitVec.toNat_inj]
  refine ⟨hval.trans (congrArg _ (sub_zero _)), hst.trans ?_⟩
  rw [decide_eq_decide.mpr hz]
  rfl

/-! ### Rotates and the exchange of nibbles (41_arithmetic_shift.md R171 to R176) -/

/-- A rotate left through C: a shift with C in at bit 0 and bit 7 out. -/
theorem rotateLeft_spec (v st : Byte) (c : Bool) :
    (rotateLeft v c).value = v <<< 1 ||| (if c then 0x01 else 0x00) ∧
    (rotateLeft v c).statusAfter st = withCarry st (decide (0x80 ≤ v.toNat)) := by
  have hshift : v <<< 1 = v.extractLsb' 0 7 ++ 0#1 := BitVec.shiftLeft_eq_concat_of_lt (by decide)
  have hin : (if c then 0x01 else 0x00 : Byte) = 0#7 ++ BitVec.ofBool c := by cases c <;> rfl
  have hout : v.getLsbD 7 = decide (0x80 ≤ v.toNat) := v.msb_eq_decide
  rw [rotateLeft, statusAfter_carryFlag, hout, hshift, hin, BitVec.or_append, BitVec.or_zero, BitVec.zero_or]
  exact ⟨rfl, rfl⟩

/-- A rotate right through C: a shift with C in at bit 7 and bit 0 out. -/
theorem rotateRight_spec (v st : Byte) (c : Bool) :
    (rotateRight v c).value = v >>> 1 ||| (if c then 0x80 else 0x00) ∧
    (rotateRight v c).statusAfter st = withCarry st (decide (v.toNat % 2 = 1)) := by
  have hshift : v >>> 1 = 0#1 ++ v.extractLsb' 1 7 := BitVec.ushiftRight_eq_extractLsb'_of_lt (by decide)
  have hin : (if c then 0x80 else 0x00 : Byte) = BitVec.ofBool c ++ 0#7 := by cases c <;> rfl
  have hout : v.getLsbD 0 = decide (v.toNat % 2 = 1) := Nat.testBit_zero v.toNat
  rw [rotateRight, statusAfter_carryFlag, hout, hshift, hin, BitVec.or_append, BitVec.zero_or, BitVec.or_zero]
  exact ⟨rfl, rfl⟩

/-- The nibbles exchanged, as two shifts. -/
theorem swapNibbles_eq (v : Byte) : swapNibbles v = v <<< 4 ||| v >>> 4 := by
  have hlow : v <<< 4 = v.extractLsb' 0 4 ++ 0#4 := BitVec.shiftLeft_eq_concat_of_lt (by decide)
  have hhigh : v >>> 4 = 0#4 ++ v.extractLsb' 4 4 := BitVec.ushiftRight_eq_extractLsb'_of_lt (by decide)
  rw [hlow, hhigh, BitVec.or_append, BitVec.or_zero, BitVec.zero_or, swapNibbles]

/-! ### Products (41_arithmetic_shift.md R177, R179) -/

/-- The signed product is the product of the sign-extended bytes. -/
theorem signedProduct_eq (a b : Byte) : signedProduct a b = a.signExtend 16 * b.signExtend 16 :=
  BitVec.ofInt_mul ..

/-- The unsigned product is the product of the zero-extended bytes. -/
theorem unsignedProduct_eq (a b : Byte) : unsignedProduct a b = a.zeroExtend 16 * b.zeroExtend 16 := by
  rw [unsignedProduct, BitVec.ofNat_mul, BitVec.ofNat_toNat, BitVec.ofNat_toNat]

/-! ### From a result to the shape of a statement -/

/-- A result into W with its value and its STATUS. -/
theorem resultToW_eq {r : AluResult} {x st : Byte} {s : State} (hval : r.value = x) (hst : r.statusAfter s.status = st) :
    resultToW r s = { s with pc := s.pc + 1, w := x, status := st } := by
  subst hval hst
  rfl

/-- The flags of a result with its STATUS. -/
theorem setFlags_eq {r : AluResult} {st : Byte} {s : State} (hst : r.statusAfter s.status = st) :
    s.advance.setFlags r = { s with pc := s.pc + 1, status := st } := by
  subst hst
  rfl

/-- A meaning that ends in a result for a file register stores it, where it is not a flag writer aimed at STATUS. -/
theorem resultToFile_stores {i : Instr} {a : Word} {r : AluResult} {x st : Byte} {s : State}
    (hi : exec i s = settle (resultToFile a r s)) (hne : a ≠ Layout.addrStatus)
    (hval : r.value = x) (hst : r.statusAfter s.status = st) :
    StoresAt i a x { s with pc := s.pc + 1, status := st } s := by
  refine storesAt_of ?_ (fun h => absurd h hne) rfl
  rw [hi, resultToFile, if_neg (fun h => hne h.1), hval, setFlags_eq hst]

/-- A meaning that ends in a flag writer's result for STATUS stops (10_state.md R26). -/
theorem resultToFile_status {i : Instr} {a : Word} {r : AluResult} {s : State} (hi : exec i s = settle (resultToFile a r s))
    (hw : r.writesFlags = true) (ha : a = Layout.addrStatus) : exec i s = .fault .flagWriterTargetsStatus := by
  rw [hi, resultToFile, if_pos ⟨ha, hw⟩]
  rfl

section OneLocation

variable {f : FileOperand} {op : Byte → AluResult} {i : Instr} {a : Word} {v x st : Byte} {s : State}

/-- An `op W,fr` form whose operand is read: the result in W, its STATUS, and nothing else but pc. -/
theorem result_toW (hv : frRead f s = .ok v) (hi : exec i s = settle (fileToW f op s)) (hval : (op v).value = x)
    (hst : (op v).statusAfter s.status = st) : exec i s = .next { s with pc := s.pc + 1, w := x, status := st } :=
  fileToW_run hv hi (resultToW_eq hval hst)

/-- An `op fr` or `op fr,W` form on an address other than STATUS: the result stored, and its STATUS. -/
theorem result_toFile (ha : effectiveAddress f s = .ok a) (hv : readFile a s = .ok v) (hne : a ≠ Layout.addrStatus)
    (hi : exec i s = settle (updateFile f op s)) (hval : (op v).value = x) (hst : (op v).statusAfter s.status = st) :
    StoresAt i a x { s with pc := s.pc + 1, status := st } s :=
  resultToFile_stores (hi.trans (congrArg settle (updateFile_of_read ha hv))) hne hval hst

end OneLocation

/-! ### Destination W -/

/-- Settles O19: each form ends in a result that writes Z alone, but for the literal move. -/
theorem moveAndCountIntoW : Obligations.MoveAndCountIntoW := by
  refine fun f k v s => ⟨rfl, rfl, rfl, rfl, rfl, fun hv => ⟨?_, ?_, ?_⟩⟩
  · exact zeroResult_toW hv rfl rfl
  · exact zeroResult_toW hv rfl (congrArg zeroFlag (byte_sub_one v))
  · exact zeroResult_toW hv rfl (congrArg zeroFlag (byte_add_one v))

/-- Settles O22: the sum of W and the operand, without a carry-in. -/
theorem additionIntoW : Obligations.AdditionIntoW := by
  intro f k v s
  have sum (b : Byte) := addFlags_spec s.w b s.status false
  refine ⟨?_, rfl, rfl, fun hv => ?_⟩
  · obtain ⟨hval, hst⟩ := sum k
    exact congrArg _ (resultToW_eq hval hst)
  · obtain ⟨hval, hst⟩ := sum v
    exact result_toW hv rfl hval hst

/-- Settles O23: the sum of W, the operand and C. -/
theorem carryAdditionIntoW : Obligations.CarryAdditionIntoW := by
  intro f v s hv
  obtain ⟨hval, hst⟩ := addFlags_spec s.w v s.status s.carry
  exact result_toW hv rfl hval hst

/-- Settles O25: the operand less W, without a borrow-in. -/
theorem subtractionIntoW : Obligations.SubtractionIntoW := by
  intro f k v s
  refine ⟨?_, rfl, rfl, fun hv => ?_⟩
  · obtain ⟨hval, hst⟩ := subFlags_noBorrow k s.w s.status
    exact congrArg _ (resultToW_eq hval hst)
  · obtain ⟨hval, hst⟩ := subFlags_noBorrow v s.w s.status
    exact result_toW hv rfl hval hst

/-- Settles O26: the operand less W and the complement of C. -/
theorem borrowSubtractionIntoW : Obligations.BorrowSubtractionIntoW := by
  intro f v s hv
  obtain ⟨hval, hst⟩ := subFlags_spec v s.w s.status (!s.carry)
  have hborrow : (!s.carry).toNat = 1 - s.carry.toNat := by cases s.carry <;> rfl
  rw [hborrow] at hval hst
  exact result_toW hv rfl hval hst

/-- Settles O29: the rotates end in a result that writes C alone, the exchange of nibbles in one without flags. -/
theorem rotateSwapIntoW : Obligations.RotateSwapIntoW := by
  refine fun f v s hv => ⟨?_, ?_, ?_, rfl, rfl, rfl⟩
  · obtain ⟨hval, hst⟩ := rotateLeft_spec v s.status s.carry
    exact result_toW hv rfl hval hst
  · obtain ⟨hval, hst⟩ := rotateRight_spec v s.status s.carry
    exact result_toW hv rfl hval hst
  · exact result_toW hv rfl (swapNibbles_eq v) rfl

/-! ### Destination fr -/

/-- Settles O20: each form updates one address with a result that writes Z alone; STATUS refuses every flag writer. -/
theorem decIncIntoFile : Obligations.DecIncIntoFile := by
  refine fun f a v s ha hv => ⟨fun hne => ⟨?_, ?_⟩, fun hst => ?_⟩
  · exact zeroResult_toFile ha hv hne rfl (congrArg zeroFlag (byte_sub_one v))
  · exact zeroResult_toFile ha hv hne rfl (congrArg zeroFlag (byte_add_one v))
  · simp only [List.forall_mem_cons]
    exact ⟨updateFile_status ha hv rfl rfl hst, updateFile_status ha hv rfl rfl hst, nofun⟩

/-- Settles O27: each form updates one address with a difference. -/
theorem subtractionIntoFile : Obligations.SubtractionIntoFile := by
  refine fun f a v s ha hv => ⟨fun hne => ⟨?_, ?_⟩, fun hst => ⟨?_, ?_⟩⟩
  · obtain ⟨hval, hst⟩ := subFlags_spec v s.w s.status false
    exact result_toFile ha hv hne rfl hval hst
  · obtain ⟨hval, hst⟩ := subFlags_spec v s.w s.status (!s.carry)
    exact result_toFile ha hv hne rfl hval hst
  · exact updateFile_status ha hv rfl rfl hst
  · exact updateFile_status ha hv rfl rfl hst

/-- Settles O30: the rotates write C and are refused by STATUS; the exchange of nibbles writes no flag and is not. -/
theorem rotateSwapIntoFile : Obligations.RotateSwapIntoFile := by
  refine fun f a v s ha hv => ⟨fun hne => ⟨?_, ?_⟩, fun hst => ⟨?_, ?_⟩, ?_⟩
  · obtain ⟨hval, hst⟩ := rotateLeft_spec v s.status s.carry
    exact result_toFile ha hv hne rfl hval hst
  · obtain ⟨hval, hst⟩ := rotateRight_spec v s.status s.carry
    exact result_toFile ha hv hne rfl hval hst
  · exact updateFile_status ha hv rfl rfl hst
  · exact updateFile_status ha hv rfl rfl hst
  · exact updateFile_stores ha hv rfl (swapNibbles_eq v) rfl (.inr rfl) (fun _ => rfl) rfl

/-- `add fr,w` where the sum does not carry into PCL (41_arithmetic_shift.md R152). -/
theorem exec_addFrW {f : FileOperand} {a : Word} {v : Byte} {s : State} (ha : effectiveAddress f s = .ok a)
    (hv : readFile a s = .ok v) (hcarry : ¬(a = Layout.addrPcl ∧ 0xFF < v.toNat + s.w.toNat)) :
    exec (.addFrW f) s = settle (resultToFile a (addFlags v s.w false) s) := by
  change execAddFrW f s = _
  rw [execAddFrW, ha, ok_bind, hv, ok_bind, if_neg hcarry]

/-- `add fr,w` stops before it writes where the sum carries out of PCL (10_state.md R23). -/
theorem exec_addFrW_pclCarry {f : FileOperand} {a : Word} {v : Byte} {s : State} (ha : effectiveAddress f s = .ok a)
    (hv : readFile a s = .ok v) (hcarry : a = Layout.addrPcl ∧ 0xFF < v.toNat + s.w.toNat) :
    exec (.addFrW f) s = .fault .pclCarry := by
  change execAddFrW f s = _
  rw [execAddFrW, ha, ok_bind, hv, ok_bind, if_pos hcarry]
  rfl

/-- Settles O24: each form stores a sum at the address read, but for `add`'s carry out of PCL; PCL is not STATUS, which refuses both. -/
theorem additionIntoFile : Obligations.AdditionIntoFile := by
  refine fun f a v s ha hv => ⟨fun hne hcarry => ?_, fun hpcl hover => ?_, fun hne => ?_, fun hst => ⟨?_, ?_⟩⟩
  · obtain ⟨hval, hst⟩ := addFlags_spec v s.w s.status false
    exact resultToFile_stores (exec_addFrW ha hv hcarry) hne hval hst
  · exact exec_addFrW_pclCarry ha hv ⟨hpcl, hover⟩
  · obtain ⟨hval, hst⟩ := addFlags_spec v s.w s.status s.carry
    exact result_toFile ha hv hne rfl hval hst
  · have hpcl : a ≠ Layout.addrPcl := hst ▸ by decide
    exact resultToFile_status (exec_addFrW ha hv (fun h => hpcl h.1)) rfl hst
  · exact updateFile_status ha hv rfl rfl hst

/-! ### mov, clr and test of a file register -/

section FileRegister

variable {f : FileOperand} {a : Word} {v : Byte} {s : State}

/-- `mov fr,w` is one write. -/
theorem exec_movFrW (ha : effectiveAddress f s = .ok a) : exec (.movFrW f) s = settle (writeFile a s.w s.advance) := by
  change execMovFrW f s = _
  rw [execMovFrW, ha, ok_bind]

/-- `clr fr` is one result, without a read (41_arithmetic_shift.md R164). -/
theorem exec_clrFr (ha : effectiveAddress f s = .ok a) : exec (.clrFr f) s = settle (resultToFile a (zeroFlag 0) s) := by
  change execClrFr f s = _
  rw [execClrFr, ha, ok_bind]

/-- `test fr` is one result, the value read, and on T0TMR the prescaler cleared (41_arithmetic_shift.md R167). -/
theorem exec_testFr (ha : effectiveAddress f s = .ok a) (hv : readFile a s = .ok v) :
    exec (.testFr f) s = settle (resultToFile a (zeroFlag v) s >>= fun t =>
      .ok (if a = s.params.addrT0tmr then { t with t0Prescaler := 0 } else t)) := by
  change execTestFr f s = _
  rw [execTestFr, ha, ok_bind, hv, ok_bind]

/-- `test fr` away from T0TMR is the result alone. -/
theorem exec_testFr_of_ne (ha : effectiveAddress f s = .ok a) (hv : readFile a s = .ok v) (ht : a ≠ s.params.addrT0tmr) :
    exec (.testFr f) s = settle (resultToFile a (zeroFlag v) s) := by
  rw [exec_testFr ha hv]
  simp only [if_neg ht]
  exact congrArg settle (bind_pure _)

/-- Two registers found at one address are one. -/
theorem Params.wf.addressOf_inj {p : Params} (hw : p.wf) {q r : Register} (hq : p.addressOf q = some a)
    (hr : p.addressOf r = some a) : q = r := by
  obtain ⟨hatq, -⟩ := hw.registerAt (mem_registers_iff.mpr hq)
  obtain ⟨hatr, -⟩ := hw.registerAt (mem_registers_iff.mpr hr)
  exact hatq.symm.trans hatr

/-- `test` of T0TMR writes the timer back with its own value. -/
theorem resultToFile_t0tmr (hw : s.params.wf) : resultToFile s.params.addrT0tmr (zeroFlag s.t0tmr) s =
    .ok { s with pc := s.pc + 1, status := withZero s.status (decide (s.t0tmr = 0)) } := by
  have hne : s.params.addrT0tmr ≠ Layout.addrStatus := fun h =>
    nomatch hw.addressOf_inj (q := .t0tmr) (r := .status) rfl (congrArg some h.symm)
  have hwrite : writeFile s.params.addrT0tmr s.t0tmr (s.advance.setFlags (zeroFlag s.t0tmr)) =
      .ok (s.advance.setFlags (zeroFlag s.t0tmr)) :=
    writeFile_at_plain (s := s.advance.setFlags (zeroFlag s.t0tmr)) hw .t0tmr
  rw [resultToFile, if_neg (fun h => hne h.1)]
  exact hwrite.trans (congrArg _ (setFlags_zero s.t0tmr s))

/-- `test fr` of T0TMR clears the prescaler and keeps the timer. -/
theorem exec_testFr_t0tmr (hw : s.params.wf) (ha : effectiveAddress f s = .ok s.params.addrT0tmr) :
    exec (.testFr f) s = .next { s with
      pc := s.pc + 1, status := withZero s.status (decide (s.t0tmr = 0)), t0Prescaler := 0 } := by
  have hread : readFile s.params.addrT0tmr s = .ok s.t0tmr := readFile_at_plain hw .t0tmr
  rw [exec_testFr ha hread, resultToFile_t0tmr hw, ok_bind, if_pos rfl]
  rfl

/-- `test fr` of STATUS stops, wherever T0TMR lies: STATUS can be read in every state. -/
theorem exec_testFr_status (ha : effectiveAddress f s = .ok a) (hst : a = Layout.addrStatus) :
    exec (.testFr f) s = .fault .flagWriterTargetsStatus := by
  subst hst
  obtain ⟨hread, -⟩ := readWriteFile_below (a := Layout.addrStatus) (by decide) (by decide) 0 s
  rw [exec_testFr ha hread, resultToFile, if_pos ⟨rfl, rfl⟩]
  rfl

end FileRegister

/-- Settles O21: `mov` is a write, `clr` and `test` a result that writes Z; T0TMR's own value is what `test` finds there. -/
theorem moveClearTestFile : Obligations.MoveClearTestFile := by
  refine fun f a v s ha => ⟨?_, fun hne => ?_, fun hne ht hv => ?_, fun hw hat => ?_, fun hst => ⟨?_, ?_⟩⟩
  · exact storesAt_of (exec_movFrW ha) (fun _ => rfl) rfl
  · exact resultToFile_stores (exec_clrFr ha) hne rfl (statusAfter_zeroFlag 0 s.status)
  · exact resultToFile_stores (exec_testFr_of_ne ha hv ht) hne rfl (statusAfter_zeroFlag v s.status)
  · exact exec_testFr_t0tmr hw (hat ▸ ha)
  · exact resultToFile_status (exec_clrFr ha) rfl hst
  · exact exec_testFr_status ha hst

/-! ### Flags only, products, and the registers named by an instruction -/

/-- What a comparison with W leaves: the flags of the difference in STATUS (41_arithmetic_shift.md R162, R163). -/
theorem flagsOnly_sub (m : Byte) (s : State) : flagsOnly (subFlags m s.w false) s = { s with
    pc := s.pc + 1
    status := withFlags s.status (decide (s.w.toNat ≤ m.toNat)) (decide (s.w.toNat % 16 ≤ m.toNat % 16)) (decide (m = s.w)) } := by
  obtain ⟨-, hst⟩ := subFlags_noBorrow m s.w s.status
  exact setFlags_eq hst

/-- `cmp w,fr` with a readable operand. -/
theorem exec_cmpWFr {f : FileOperand} {v : Byte} {s : State} (hv : frRead f s = .ok v) :
    exec (.cmpWFr f) s = .next (flagsOnly (subFlags v s.w false) s) := by
  change execCmpWFr f s = _
  rw [execCmpWFr, hv]
  rfl

/-- Settles O28: the flags of a difference, and its value nowhere. -/
theorem compareWritesFlagsOnly : Obligations.CompareWritesFlagsOnly :=
  fun _ k v s => ⟨congrArg _ (flagsOnly_sub k s), rfl, rfl, fun hv => (exec_cmpWFr hv).trans (congrArg _ (flagsOnly_sub v s))⟩

/-- A multiply with a readable operand: the product in MULH and W. -/
theorem multiplyFile_of_read {f : FileOperand} {product : Byte → Byte → Word} {v : Byte} {s : State} (hv : frRead f s = .ok v) :
    settle (multiplyFile f product s) = .next (s.advance.setProduct (product s.w v)) :=
  settle_eq_next.mpr (multiplyFile_eq_ok.mpr ⟨v, hv, rfl⟩)

/-- Settles O32: each product as that of the extended bytes. -/
theorem multiplyIntoMulhAndW : Obligations.MultiplyIntoMulhAndW := by
  intro f k v s
  simp only [← signedProduct_eq, ← unsignedProduct_eq, List.forall_mem_cons]
  exact ⟨rfl, rfl, rfl, rfl, rfl, rfl, fun _ => ⟨rfl, rfl, rfl, rfl, nofun⟩,
    fun hv => ⟨multiplyFile_of_read hv, multiplyFile_of_read hv⟩⟩

/-- Settles O33: each instruction writes what it names. -/
theorem immediateRegisterWrites : Obligations.ImmediateRegisterWrites :=
  fun _ _ _ => ⟨rfl, rfl, rfl, rfl, rfl, rfl⟩

end Sys2Proof.Machine
end

section
/-! Skips (42_compare_skip.md, 43_bit.md R212 to R214): the conditions as propositions about the operand, then from the meaning of each
form to the shape of its statement (O35, O36, O37). -/

namespace Sys2Proof.Machine

/-! ### The conditions (42_compare_skip.md R190 to R203, 43_bit.md R212, R213) -/

/-- The condition of a "not" form is the negation of its counterpart's. -/
theorem bne_of_beq {x y : Byte} {p : Prop} [Decidable p] (h : (x == y) = decide p) : (x != y) = decide (¬p) := by
  rw [bne, h, decide_not]

/-- The condition of `sb`: a set bit is the parity of the quotient by its weight. -/
theorem getLsbD_eq_decide (v : Byte) (n : Nat) : v.getLsbD n = decide (v.toNat / 2 ^ n % 2 = 1) :=
  Bool.eq_iff_iff.mpr (bit_eq_true_iff.trans decide_eq_true_iff.symm)

/-- The condition of `snb`: a clear bit is the other parity. -/
theorem not_getLsbD_eq_decide (v : Byte) (n : Nat) : (!v.getLsbD n) = decide (v.toNat / 2 ^ n % 2 = 0) := by
  rw [Bool.eq_iff_iff, Bool.not_eq_true', bit_eq_false_iff, decide_eq_true_iff]

/-- Counting down meets zero at one. -/
theorem byte_sub_one_beq_zero (v : Byte) : (v - 1 == 0) = decide (v = 0x01) :=
  decide_eq_decide.mpr sub_eq_zero

/-- Counting up wraps to zero at 0xFF. -/
theorem byte_add_one_beq_zero (v : Byte) : (v + 1 == 0) = decide (v = 0xFF) :=
  decide_eq_decide.mpr eq_neg_iff_add_eq_zero.symm

/-! ### From the meaning of a form to the shape of its statement -/

section SkipForms

variable {f : FileOperand} {i : Instr} {a : Word} {v r : Byte} {c : Bool} {count : Byte → Byte} {cond : Byte → Bool} {s : State}

/-- A compare-and-skip or bit-test form whose operand is read moves pc alone. -/
theorem testAndSkip_skips (hv : frRead f s = .ok v) (hi : exec i s = settle (testAndSkip f cond s)) (hc : cond v = c) :
    SkipsWhen c i { s with pc := s.pc + 1 } s := by
  refine skips_of ?_
  rw [hi, testAndSkip, hv, ok_bind, hc]
  rfl

/-- A count-and-skip form into W whose operand is read leaves the new value in W, whether or not it skips. -/
theorem countToW_skips (hv : frRead f s = .ok v) (hi : exec i s = settle (countToW f count cond s)) (hr : count v = r)
    (hc : cond (count v) = c) : SkipsWhen c i { s with pc := s.pc + 1, w := r } s := by
  refine skips_of ?_
  rw [hi, countToW, hv, ok_bind, hc, hr]
  rfl

/-- A count-and-skip form into a file register other than PCL is one write and then the skip. -/
theorem countInFile_of_read (ha : effectiveAddress f s = .ok a) (hv : readFile a s = .ok v) (hne : a ≠ Layout.addrPcl) :
    countInFile f count cond s = writeFile a (count v) s.advance >>= skipWhen (cond (count v)) s := by
  rw [countInFile, ha, ok_bind, if_neg hne, hv, ok_bind]

/-- A count-and-skip form into a file register other than PCL stores the new value whether or not it skips; where the register
refuses the value the form stops before it looks at the condition. -/
theorem countInFile_counts (ha : effectiveAddress f s = .ok a) (hv : readFile a s = .ok v) (hne : a ≠ Layout.addrPcl)
    (hi : exec i s = settle (countInFile f count cond s)) (hr : count v = r) (hc : cond (count v) = c) : CountsAt i a r c s := by
  rw [countInFile_of_read ha hv hne, hc, hr] at hi
  have haccepts : writeAccepts a r s.advance = writeAccepts a r s := writeAccepts_congr (fun _ => rfl) rfl
  constructor
  · intro hok
    obtain ⟨t, ht⟩ := (writeFile_isOk a r s.advance).mpr (haccepts.trans hok)
    exact ⟨t, ht, skips_of (by rw [hi, ht, ok_bind])⟩
  · intro hrefused
    obtain ⟨e, he⟩ := writeFile_error (haccepts.trans hrefused)
    exact ⟨e, by rw [hi, he, error_bind]; rfl⟩

/-- A count-and-skip form aimed at PCL stops (10_state.md R23, 42_compare_skip.md R194). -/
theorem countInFile_pcl (ha : effectiveAddress f s = .ok a) (hpcl : a = Layout.addrPcl)
    (hi : exec i s = settle (countInFile f count cond s)) : exec i s = .fault .skipOnPcl := by
  rw [hi, countInFile, ha, ok_bind, if_pos hpcl]
  rfl

end SkipForms

/-! ### The statements -/

/-- Settles O35: each form is a skip on its condition, the operand forms after a read. -/
theorem compareAndBitSkips : Obligations.CompareAndBitSkips := by
  refine fun f b k v s => ⟨skips_of rfl, ?_, fun hv => ⟨?_, ?_, ?_, ?_⟩⟩
  · have hcond : (k != s.w) = decide (k ≠ s.w) := bne_of_beq rfl
    exact hcond ▸ skips_of rfl
  · exact testAndSkip_skips hv rfl rfl
  · exact testAndSkip_skips hv rfl (bne_of_beq rfl)
  · exact testAndSkip_skips hv rfl (getLsbD_eq_decide v b.toNat)
  · exact testAndSkip_skips hv rfl (not_getLsbD_eq_decide v b.toNat)

/-- Settles O36: each form writes the count into W and skips on it. -/
theorem countAndSkipIntoW : Obligations.CountAndSkipIntoW := by
  refine fun f v s hv => ⟨?_, ?_, ?_, ?_⟩
  · exact countToW_skips hv rfl (byte_sub_one v) (byte_sub_one_beq_zero v)
  · exact countToW_skips hv rfl (byte_sub_one v) (bne_of_beq (byte_sub_one_beq_zero v))
  · exact countToW_skips hv rfl (byte_add_one v) (byte_add_one_beq_zero v)
  · exact countToW_skips hv rfl (byte_add_one v) (bne_of_beq (byte_add_one_beq_zero v))

/-- Settles O37: each form stores the count at the address read and skips on it; each looks for PCL before it reads. -/
theorem countAndSkipInFile : Obligations.CountAndSkipInFile := by
  refine fun f a v s ha hv => ⟨fun hne => ⟨?_, ?_, ?_, ?_⟩, fun hpcl => ?_⟩
  · exact countInFile_counts ha hv hne rfl (byte_sub_one v) (byte_sub_one_beq_zero v)
  · exact countInFile_counts ha hv hne rfl (byte_sub_one v) (bne_of_beq (byte_sub_one_beq_zero v))
  · exact countInFile_counts ha hv hne rfl (byte_add_one v) (byte_add_one_beq_zero v)
  · exact countInFile_counts ha hv hne rfl (byte_add_one v) (bne_of_beq (byte_add_one_beq_zero v))
  · simp only [List.forall_mem_cons]
    exact ⟨countInFile_pcl ha hpcl rfl, countInFile_pcl ha hpcl rfl, countInFile_pcl ha hpcl rfl, countInFile_pcl ha hpcl rfl, nofun⟩

end Sys2Proof.Machine
end

section
/-! Bit writes (43_bit.md R210, R211, R214): one bit cleared or set as the combination with a power of two, the form of an update that writes
no flag, and the statement (O31). -/

namespace Sys2Proof.Machine

/-- The byte with one bit cleared, as a mask (43_bit.md R210). -/
theorem setBit_false (v : Byte) (n : Nat) : setBit v n false = v &&& ~~~(BitVec.twoPow 8 n) := rfl

/-- The byte with one bit set, as a mask (43_bit.md R211). -/
theorem setBit_true (v : Byte) (n : Nat) : setBit v n true = v ||| BitVec.twoPow 8 n := rfl

/-- An `op fr` form whose result writes no flag: the result stored at the address read, STATUS as any other, and nothing else but pc. -/
theorem flaglessResult_toFile {f : FileOperand} {op : Byte → AluResult} {i : Instr} {a : Word} {v r : Byte} {s : State}
    (ha : effectiveAddress f s = .ok a) (hv : readFile a s = .ok v) (hi : exec i s = settle (updateFile f op s))
    (hop : op v = noFlags r) : StoresAt i a r { s with pc := s.pc + 1 } s := by
  have hvalue : (op v).value = r := congrArg AluResult.value hop
  have hstatus : (op v).statusAfter s.status = s.status := hop ▸ statusAfter_noFlags r s.status
  have hquiet : (op v).writesFlags = false := congrArg AluResult.writesFlags hop
  exact updateFile_stores ha hv hi hvalue (setFlags_eq hstatus) (.inr hquiet) (fun _ => rfl) rfl

/-- Settles O31: each form updates one address with the byte read, one bit of it cleared or set, and no flag. -/
theorem bitWritesIntoFile : Obligations.BitWritesIntoFile := by
  refine fun f b a v s ha hv => ⟨?_, ?_⟩
  · exact flaglessResult_toFile ha hv rfl (congrArg noFlags (setBit_false v b.toNat))
  · exact flaglessResult_toFile ha hv rfl (congrArg noFlags (setBit_true v b.toNat))

end Sys2Proof.Machine
end

section
/-! The data stack (44_data_movement.md R223 to R226): `push` as one store followed by a count of SP, `pop` as a count of SP followed by one
store, where each stops (O39, O40), and one after the other inside data memory (O41). -/

namespace Sys2Proof.Machine

/-- SP written as a pair reads as the word. -/
@[simp] theorem State.setSp_sp (s : State) (v : Word) : (s.setSp v).sp = v := joinBytes_hiByte_loByte v

section DataStack

variable {f : FileOperand} {i : Instr} {a : Word} {k v : Byte} {e : Fault} {s : State}

/-! ### push (44_data_movement.md R223, R224) -/

/-- `push fr` with a readable operand is the push of the byte read. -/
theorem exec_pushFr (hv : frRead f s = .ok v) : exec (.pushFr f) s = settle (pushByte v s) := by
  change execPushFr f s = _
  rw [execPushFr, hv, ok_bind]

/-- A push stores at the old SP and counts down the SP that the store leaves (log entry 22); it stops where the store is refused. -/
theorem pushByte_stores (hi : exec i s = settle (pushByte v s)) :
    (writeAccepts s.sp v s = true → ∃ t, writeFile s.sp v s.advance = .ok t ∧ exec i s = .next (t.setSp (t.sp - 1))) ∧
    (writeAccepts s.sp v s = false → ∃ e, exec i s = .fault e) := by
  have haccepts : writeAccepts s.sp v s.advance = writeAccepts s.sp v s := writeAccepts_congr (fun _ => rfl) rfl
  constructor
  · intro hok
    obtain ⟨t, ht⟩ := (writeFile_isOk s.sp v s.advance).mpr (haccepts.trans hok)
    exact ⟨t, ht, hi.trans (settle_eq_next.mpr (pushByte_eq_ok.mpr ⟨t, ht, rfl⟩))⟩
  · intro hrefused
    obtain ⟨e, he⟩ := writeFile_error (haccepts.trans hrefused)
    exact ⟨e, hi.trans (settle_eq_fault.mpr (by rw [pushByte, he, error_bind]))⟩

/-! ### pop (44_data_movement.md R225) -/

/-- `pop` to SPH or SPL, however the operand names it, depends on SP. -/
theorem popAddress_of_sp (hf : ∀ o, f ≠ .spOffset o) (ha : effectiveAddress f s = .ok a)
    (hsp : a = Layout.addrSph ∨ a = Layout.addrSpl) : popAddress f s = .error .popDependsOnSp := by
  rw [popAddress, isSpOffset_eq_false hf, ha, ok_bind, if_pos hsp]
  rfl

/-- `pop` without a destination stops for the destination's reason. -/
theorem exec_popFr_of_no_address (ha : popAddress f s = .error e) : exec (.popFr f) s = .fault e :=
  settle_eq_fault.mpr (by rw [ha, error_bind])

/-- `pop` to an operand that does not depend on SP is the pop to its address. -/
theorem exec_popFr (hf : ∀ o, f ≠ .spOffset o) (ha : effectiveAddress f s = .ok a) (hsph : a ≠ Layout.addrSph)
    (hspl : a ≠ Layout.addrSpl) : exec (.popFr f) s = settle (popByte a s) := by
  have hdest : popAddress f s = .ok a := popAddress_eq_ok.mpr ⟨isSpOffset_eq_false hf, ha, hsph, hspl⟩
  change execPopFr f s = _
  rw [execPopFr, hdest, ok_bind]

/-- A pop whose stack byte can be read is one write of that byte, with SP already counted up. -/
theorem popByte_of_read (hv : readFile (s.sp + 1) (s.setSp (s.sp + 1)) = .ok v) :
    popByte a s = writeFile a v (s.setSp (s.sp + 1)).advance := by
  rw [popByte, State.setSp_sp, hv, ok_bind]

/-- A pop whose stack byte cannot be read stops with the reason of the read. -/
theorem popByte_of_unreadable (he : readFile (s.sp + 1) (s.setSp (s.sp + 1)) = .error e) : popByte a s = .error e := by
  rw [popByte, State.setSp_sp, he, error_bind]

/-! ### Inside data memory -/

/-- A literal pushed while SP is in data memory is at the old SP, and SP is one less. -/
theorem exec_pushLit_data (hlo : 0x080 ≤ s.sp.toNat) (hhi : s.sp.toNat ≤ 0xFFF) :
    ∃ t, exec (.pushLit k) s = .next t ∧ t.sp = s.sp - 1 ∧ t.pc = s.pc + 1 ∧
      t.data = memWrite Layout.unlistedRam s.data s.sp.toNat k := by
  obtain ⟨-, hwrite⟩ := readWriteFile_data hlo hhi k s.advance
  exact ⟨_, settle_eq_next.mpr (pushByte_eq_ok.mpr ⟨_, hwrite, rfl⟩), State.setSp_sp _ _, rfl, rfl⟩

/-- A pop from data memory to data memory copies the byte one above SP, and SP is there. -/
theorem exec_popFr_data {p : Word} (hf : ∀ o, f ≠ .spOffset o) (ha : effectiveAddress f s = .ok a) (halo : 0x080 ≤ a.toNat)
    (hahi : a.toNat ≤ 0xFFF) (hp : s.sp + 1 = p) (hlo : 0x080 ≤ p.toNat) (hhi : p.toNat ≤ 0xFFF) :
    ∃ u, exec (.popFr f) s = .next u ∧ u.sp = p ∧ u.pc = s.pc + 1 ∧
      u.data = memWrite Layout.unlistedRam s.data a.toNat (memRead Layout.unlistedRam s.data p.toNat) := by
  subst hp
  have hsph : a ≠ Layout.addrSph := by rintro rfl; exact absurd halo (by decide)
  have hspl : a ≠ Layout.addrSpl := by rintro rfl; exact absurd halo (by decide)
  obtain ⟨hread, -⟩ := readWriteFile_data hlo hhi 0 (s.setSp (s.sp + 1))
  obtain ⟨-, hwrite⟩ := readWriteFile_data halo hahi (memRead Layout.unlistedRam s.data (s.sp + 1).toNat) (s.setSp (s.sp + 1)).advance
  have hpop := (exec_popFr hf ha hsph hspl).trans (congrArg settle (popByte_of_read hread))
  exact ⟨_, hpop.trans (settle_eq_next.mpr hwrite), State.setSp_sp s (s.sp + 1), rfl, rfl⟩

end DataStack

/-- A byte written at `p` and copied to `a` is at both, also where they are one address, and every other byte is as before. -/
theorem memRead_memWrite_copy {blank : Byte} {m : Memory} (hm : Memory.wf blank m) (p a : Nat) (v : Byte) :
    let copied := memWrite blank (memWrite blank m p v) a (memRead blank (memWrite blank m p v) p)
    memRead blank copied a = v ∧ memRead blank copied p = v ∧ ∀ b, b ≠ a → b ≠ p → memRead blank copied b = memRead blank m b := by
  have hm' : Memory.wf blank (memWrite blank m p v) := memWrite_wf hm p v
  have hp : memRead blank (memWrite blank m p v) p = v := memRead_memWrite_same hm p v
  rw [hp]
  refine ⟨memRead_memWrite_same hm' a v, ?_, fun b hba hbp => ?_⟩
  · by_cases h : p = a
    · exact h ▸ memRead_memWrite_same hm' p v
    · exact (memRead_memWrite_other hm' v h).trans hp
  · exact (memRead_memWrite_other hm' v hba).trans (memRead_memWrite_other hm v hbp)

/-! ### The statements -/

/-- Settles O39: both forms push a byte, the operand form after its read. -/
theorem pushStoresThenDecrements : Obligations.PushStoresThenDecrements :=
  fun _ _ _ _ => ⟨pushByte_stores rfl, fun hv => pushByte_stores (exec_pushFr hv)⟩

/-- Settles O40: the destination first, which may depend on SP, then the byte at SP + 1, then one write. -/
theorem popIncrementsThenLoads : Obligations.PopIncrementsThenLoads := by
  refine fun f o a v e s => ⟨rfl, fun hf ha => ⟨fun hsp => ?_, fun hsph hspl => ⟨fun hv => ?_, fun he => ?_⟩⟩⟩
  · exact exec_popFr_of_no_address (popAddress_of_sp hf ha hsp)
  · have hwrite := (exec_popFr hf ha hsph hspl).trans (congrArg settle (popByte_of_read hv))
    exact storesAt_of hwrite (fun _ => rfl) rfl
  · exact (exec_popFr hf ha hsph hspl).trans (settle_eq_fault.mpr (popByte_of_unreadable he))

/-- Settles O41: the push writes the byte at SP, and the pop counts back to it and copies it to the address named. -/
theorem pushThenPop : Obligations.PushThenPop := by
  intro k a s hwf hlo hhi ha
  have hnat : (a.zeroExtend 16).toNat = a.toNat := BitVec.toNat_setWidth_of_le (by decide)
  have hsmall : a.toNat ≤ 0xFFF := by have := a.isLt; omega
  obtain ⟨t, hpush, htsp, htpc, htdata⟩ := exec_pushLit_data (k := k) hlo hhi
  have hback : t.sp + 1 = s.sp := htsp ▸ sub_add_cancel s.sp 1
  obtain ⟨u, hpop, husp, hupc, hudata⟩ :=
    exec_popFr_data (f := .direct a) nofun rfl (hnat.symm ▸ ha) (hnat.symm ▸ hsmall) hback hlo hhi
  have hpc : u.pc = s.pc + 2 := by rw [hupc, htpc, add_assoc]; rfl
  refine ⟨t, u, hpush, hpop, husp, hpc, ?_⟩
  rw [hudata, htdata, hnat]
  exact memRead_memWrite_copy hwf s.sp.toNat a.toNat k

end Sys2Proof.Machine
end

section
/-! Program control (45_program_control.md R230 to R240): the call stack where it answers, the three returns on a popped address (O42, O43),
and `int` as an interrupt entry or as no operation (O45). -/

namespace Sys2Proof.Machine

section ProgramControl

variable {ra : Word} {rest : List Word} {b : Bool} {s : State}

/-! ### Calls and returns (45_program_control.md R231, R234) -/

/-- `call` with room on the call stack pushes the return address and jumps. -/
theorem exec_call_of_room {k : BitVec 13} (h : s.callStack.length < Layout.callStackDepth) :
    exec (.call k) s = .next { s with pc := jumpTarget k s, callStack := (s.pc + 1) :: s.callStack } := by
  have hpush : callPush (s.pc + 1) s = .ok { s with callStack := (s.pc + 1) :: s.callStack } := callPush_eq_ok.mpr ⟨h, rfl⟩
  exact settle_eq_next.mpr (bind_eq_ok.mpr ⟨_, hpush, rfl⟩)

/-- A return with something pushed goes to the top of the call stack, and sets PA2:0 where asked. -/
theorem settle_returnTo (h : s.callStack = ra :: rest) : settle (returnTo b s) = .next { s with
    pc := ra, callStack := rest, status := if b then withPage s.status (ra.extractLsb' 13 3) else s.status } :=
  settle_eq_next.mpr (returnTo_eq_ok.mpr ⟨ra, rest, h, rfl⟩)

/-! ### `int` (45_program_control.md R232) -/

/-- An entry inside a routine stops (60_exceptions.md R291). -/
theorem interruptEntry_nested (h : s.inIsr = true) : interruptEntry ra s = .error .nestedInterrupt := if_pos h

/-- The condition that `int` tests, with INT_EN's polarity as printed (log entry 28). -/
theorem int_condition_iff : (s.gie && !s.intEn) = true ↔ s.gie = true ∧ s.intEn = false := by
  rw [Bool.and_eq_true, Bool.not_eq_true']

/-- `int` with GIE = 1 and INT_EN = 0 is an interrupt entry that returns to the next instruction. -/
theorem exec_int_of_enabled (hgie : s.gie = true) (hen : s.intEn = false) :
    exec .int s = settle (interruptEntry (s.pc + 1) s) :=
  if_pos (int_condition_iff.mpr ⟨hgie, hen⟩)

/-- `int` otherwise is no operation. -/
theorem exec_int_of_disabled (h : ¬(s.gie = true ∧ s.intEn = false)) : exec .int s = .next s.advance :=
  if_neg (mt int_condition_iff.mp h)

end ProgramControl

/-! ### The statements -/

/-- Settles O42: `jmp` has one case, and `call` answers where there is room on the call stack. -/
theorem jumpAndCall : Obligations.JumpAndCall :=
  fun _ _ => ⟨rfl, exec_call_of_room⟩

/-- Settles O43: each form is the shared return, `retw` after its load of W. -/
theorem returnsPopTheCallStack : Obligations.ReturnsPopTheCallStack := by
  intro k t rest s h
  refine ⟨?_, ?_, ?_⟩
  · exact settle_returnTo (b := true) h
  · exact settle_returnTo (b := false) h
  · exact settle_returnTo (b := true) (s := { s with w := k }) h

/-- Settles O45: by whether the interrupt is enabled, and then by whether a routine is running. -/
theorem softwareInterrupt : Obligations.SoftwareInterrupt := by
  refine fun s => ⟨fun hgie hen hisr => ?_, fun hgie hen hisr => ?_, exec_int_of_disabled⟩
  · rw [exec_int_of_enabled hgie hen]
    exact settle_eq_next.mpr (interruptEntry_eq_ok.mpr ⟨hisr, rfl⟩)
  · rw [exec_int_of_enabled hgie hen]
    exact settle_eq_fault.mpr (interruptEntry_nested hisr)

end Sys2Proof.Machine
end

section
/-! System control (46_system_control.md): where an ADDR value lies, the guards of the flash and program-memory instructions and what each
does in each region (O50 to O54), the controller's completion and countdown (O56, O57), and Break mode (O49). -/

namespace Sys2Proof.Machine

section SystemControl

variable {p : Params} {a : ByteAddress} {s u : State} {i : Instr} {e : Fault} {op : FlashOp} {reads : Bool}

/-! ### Where an ADDR value lies (20_memory.md R74, R75) -/

/-- The on-chip ADDR values are those below 2^17 (20_memory.md R75). -/
theorem addrOnChip_iff : addrOnChip a = true ↔ a.toNat < 2 ^ 17 := by
  refine ⟨fun h => ?_, addrOnChip_of_lt⟩
  have hhigh : (a.extractLsb' 17 7).toNat = 0 := congrArg BitVec.toNat (eq_of_beq h)
  have ha := a.isLt
  rw [BitVec.extractLsb'_toNat, Nat.shiftRight_eq_div_pow] at hhigh
  omega

/-- A byte of a word of the program space is on chip. -/
theorem byteAddress_lt_of_le {hi : Word} (h : a.toNat ≤ 2 * hi.toNat + 1) : a.toNat < 2 ^ 17 := by
  have hhi := hi.isLt
  omega

/-- The word address of an on-chip ADDR value is half of it. -/
theorem addrWord_toNat (h : a.toNat < 2 ^ 17) : (addrWord a).toNat = a.toNat / 2 := by
  rw [addrWord_eq_ofNat, BitVec.toNat_ofNat, Nat.mod_eq_of_lt (by omega)]

/-- An ADDR value on chip with its word between two others, as bounds on the bytes. -/
theorem addrBetween_iff {lo hi : Word} :
    (addrOnChip a && decide (lo.toNat ≤ (addrWord a).toNat ∧ (addrWord a).toNat ≤ hi.toNat)) = true ↔
      2 * lo.toNat ≤ a.toNat ∧ a.toNat ≤ 2 * hi.toNat + 1 := by
  rw [Bool.and_eq_true, addrOnChip_iff, decide_eq_true_iff]
  constructor
  · rintro ⟨hchip, hword⟩
    rw [addrWord_toNat hchip] at hword
    omega
  · intro h
    rw [addrWord_toNat (byteAddress_lt_of_le h.2)]
    have hchip : a.toNat < 2 ^ 17 := byteAddress_lt_of_le h.2
    omega

/-- An ADDR value selects flash where it is a byte address of flash. -/
theorem addrInFlash_iff : p.addrInFlash a = true ↔ p.flashByte a := addrBetween_iff

/-- An ADDR value has its word in program RAM where it is a byte address of program RAM. -/
theorem addrInPram_iff : (addrOnChip a && p.inPram (addrWord a)) = true ↔ p.ramByte a := addrBetween_iff

/-- A byte address of flash and not of program RAM selects flash. -/
theorem regionOf_of_flashByte (hr : ¬p.ramByte a) (hf : p.flashByte a) : p.regionOf a = .flash := by
  rw [Params.regionOf, if_neg (mt addrInPram_iff.mp hr)]
  exact if_pos (addrInFlash_iff.mpr hf)

/-- An ADDR value of neither on-chip memory selects external memory inside the free window (log entry 13). -/
theorem regionOf_of_offChip (hr : ¬p.ramByte a) (hf : ¬p.flashByte a) :
    p.regionOf a = if Config.externalWindow a then .external else .unbacked := by
  rw [Params.regionOf, if_neg (mt addrInPram_iff.mp hr)]
  exact if_neg (mt addrInFlash_iff.mp hf)

/-- The ADDR values that select program RAM are its byte addresses. -/
theorem regionOf_eq_programRam_iff : p.regionOf a = .programRam ↔ p.ramByte a := by
  refine ⟨fun h => ?_, regionOf_of_ramByte⟩
  by_contra hr
  by_cases hf : p.flashByte a
  · cases h.symm.trans (regionOf_of_flashByte hr hf)
  · rw [regionOf_of_offChip hr hf] at h
    split at h
    · cases h
    · cases h

/-- Well-formed parameters: no byte address is both of flash and of program RAM. -/
theorem Params.wf.not_ramByte (hw : p.wf) (hf : p.flashByte a) : ¬p.ramByte a := by
  have hdisjoint := hw.disjoint
  omega

/-- The word of an even on-chip ADDR value is at ADDR and the byte after it (20_memory.md R75, R79). -/
theorem two_mul_addrWord (heven : s.addrl.getLsbD 0 = false) (hchip : s.addr.toNat < 2 ^ 17) :
    2 * (addrWord s.addr).toNat = s.addr.toNat := by
  have hmod : s.addr.toNat % 2 = 0 := by simpa using congrArg BitVec.toNat (addr_even heven)
  rw [addrWord_toNat hchip]
  omega

/-- The high half of two joined bytes. -/
@[simp] theorem hiByte_joinBytes (x y : Byte) : hiByte (joinBytes x y) = x := by
  apply BitVec.eq_of_getLsbD_eq
  intro j hj
  rw [hiByte, joinBytes, BitVec.getLsbD_extractLsb', BitVec.getLsbD_append]
  simp [hj]

/-- The low half of two joined bytes. -/
@[simp] theorem loByte_joinBytes (x y : Byte) : loByte (joinBytes x y) = y := by
  apply BitVec.eq_of_getLsbD_eq
  intro j hj
  rw [loByte, joinBytes, BitVec.getLsbD_extractLsb', BitVec.getLsbD_append]
  simp [hj]

/-- The word that an even on-chip ADDR value selects, read into DATA byte by byte. -/
theorem advance_setData_wordRead (blank : Byte) (m : Memory) (heven : s.addrl.getLsbD 0 = false) (hchip : s.addr.toNat < 2 ^ 17) :
    s.advance.setData (wordRead blank m (addrWord s.addr)) =
      { s with pc := s.pc + 1, datah := memRead blank m s.addr.toNat, datal := memRead blank m (s.addr.toNat + 1) } := by
  rw [State.setData, wordRead, hiByte_joinBytes, loByte_joinBytes, two_mul_addrWord heven hchip]
  rfl

/-! ### The guards (46_system_control.md R253, 20_memory.md R80) -/

/-- A flash instruction stops while FBUSY = 1. -/
theorem flashGuard_busy (h : s.flashOp.isSome = true) : flashGuard s = some .flashInstructionWhileBusy := if_pos h

/-- With FBUSY = 0, a flash instruction stops exactly where it is fetched from flash. -/
theorem flashGuard_idle (h : s.flashOp = none) :
    flashGuard s = if s.params.inFlash s.pc then some .flashInstructionFromFlash else none := by
  rw [flashGuard, State.fbusy, h]
  rfl

/-- The fetch is from flash where pc is between its bounds. -/
theorem inFlash_iff {wa : Word} :
    p.inFlash wa = true ↔ p.flashBase.toNat ≤ wa.toNat ∧ wa.toNat ≤ p.flashEnd.toNat := decide_eq_true_iff

/-- A flash instruction is let through with FBUSY = 0 and from outside flash. -/
theorem flashGuard_none (h : s.flashOp = none)
    (hp : ¬(s.params.flashBase.toNat ≤ s.pc.toNat ∧ s.pc.toNat ≤ s.params.flashEnd.toNat)) : flashGuard s = none := by
  rw [flashGuard_idle h, if_neg (mt inFlash_iff.mp hp)]

/-- A flash instruction stopped by its guard. -/
theorem exec_of_flashGuard (hi : i ∈ [.ferase, .fread, .fwrite]) (hg : flashGuard s = some e) : exec i s = .fault e := by
  have hall (odd inFlash : Bool) (f : Fault) (v : State) : guardedIssue odd inFlash f v s = .fault e := by
    rw [guardedIssue, hg]
  simp only [List.mem_cons, List.not_mem_nil, or_false] at hi
  obtain rfl | rfl | rfl := hi
  · exact (execFerase_eq s).trans (hall ..)
  · exact (execFread_eq s).trans (hall ..)
  · exact (execFwrite_eq s).trans (hall ..)

/-- Past its guard a flash instruction stops where ADDR is not aligned for it. -/
theorem guardedIssue_unaligned {odd inFlash : Bool} (hg : flashGuard s = none) (hodd : odd = true) :
    guardedIssue odd inFlash e u s = .fault e := by
  rw [guardedIssue, hg, hodd]
  rfl

/-- Past its guard and aligned, a flash instruction issues its operation in flash. -/
theorem guardedIssue_inFlash {odd inFlash : Bool} (hg : flashGuard s = none) (heven : odd = false) (hf : inFlash = true) :
    guardedIssue odd inFlash e u s = .next u := by
  rw [guardedIssue, hg, heven, hf]
  rfl

/-- Past its guard and aligned, a flash instruction is no operation outside flash. -/
theorem guardedIssue_outside {odd inFlash : Bool} (hg : flashGuard s = none) (heven : odd = false) (hf : ¬inFlash = true) :
    guardedIssue odd inFlash e u s = .next s.advance := by
  rw [guardedIssue, hg, heven, Bool.eq_false_iff.mpr hf]
  rfl

/-- A program-memory access stops while FBUSY = 1, a read of flash by the manual's own prohibition (log entry 27). -/
theorem accessGuard_busy (h : s.flashOp.isSome = true) : accessGuard reads s =
    if reads && s.params.addrInFlash s.addr then some .flashAccessWhileBusy else some .programAccessWhileBusy := if_pos h

/-- With FBUSY = 0, a program-memory access stops exactly where ADDR is odd. -/
theorem accessGuard_idle (h : s.flashOp = none) :
    accessGuard reads s = if s.addrl.getLsbD 0 then some .oddAddr else none := by
  rw [accessGuard, State.fbusy, h]
  rfl

/-- A program-memory access is let through with FBUSY = 0 and an even ADDR. -/
theorem accessGuard_none (h : s.flashOp = none) (heven : s.addrl.getLsbD 0 = false) : accessGuard reads s = none := by
  rw [accessGuard_idle h, heven]
  rfl

/-- A program-memory read stopped by its guard. -/
theorem exec_read_of_accessGuard (hi : i ∈ [.iread, .ireadi]) (hg : accessGuard true s = some e) : exec i s = .fault e := by
  simp only [List.mem_cons, List.not_mem_nil, or_false] at hi
  obtain rfl | rfl := hi
  · change execIread s = _
    rw [execIread, hg]
  · change execIreadi s = _
    rw [execIreadi, hg]

/-- A program-memory write stopped by its guard. -/
theorem exec_write_of_accessGuard (hi : i ∈ [.iwrite, .iwritei]) (hg : accessGuard false s = some e) :
    exec i s = .fault e := by
  simp only [List.mem_cons, List.not_mem_nil, or_false] at hi
  obtain rfl | rfl := hi
  · change execIwrite s = _
    rw [execIwrite, hg]
  · change execIwritei s = _
    rw [execIwritei, hg]

/-- None of the instructions that may issue an operation completes while one is pending (46_system_control.md R253). -/
theorem exec_faults_of_busy (hi : i ∈ [.ferase, .fread, .fwrite, .iread, .ireadi, .iwrite]) (h : s.flashOp.isSome = true) :
    ∃ e, exec i s = .fault e := by
  have hread : ∃ e, accessGuard true s = some e := by
    rw [accessGuard_busy h]
    split
    · exact ⟨_, rfl⟩
    · exact ⟨_, rfl⟩
  obtain hflash | hrd | hwr : i ∈ [.ferase, .fread, .fwrite] ∨ i ∈ [.iread, .ireadi] ∨ i ∈ [.iwrite, .iwritei] := by
    simp only [List.mem_cons, List.not_mem_nil, or_false] at hi ⊢
    tauto
  · exact ⟨_, exec_of_flashGuard hflash (flashGuard_busy h)⟩
  · exact hread.imp fun _ => exec_read_of_accessGuard hrd
  · exact ⟨_, exec_write_of_accessGuard hwr (accessGuard_busy h)⟩

/-! ### Program-memory accesses by region (46_system_control.md R257 to R260) -/

/-- ADDRL below 0xFE counts on. -/
theorem stepAddrl_of_lt {x : Byte} (h : x.toNat < 0xFE) : stepAddrl x s = .next { s with addrl := x + 2 } :=
  stepAddrl_eq_next.mpr ⟨h, rfl⟩

/-- ADDRL at 0xFE carries. -/
theorem stepAddrl_carry {x : Byte} (h : x = 0xFE) : stepAddrl x s = .fault .addrlCarry := by
  subst h
  rfl

/-- `iread` leaves `u`, and `ireadi` the same with ADDRL counted on where it does not carry. -/
structure ReadsTo (s u : State) : Prop where
  iread : exec .iread s = .next u
  ireadi : exec .ireadi s = stepAddrl s.addrl u

/-- Reads of program RAM are made at once. -/
theorem readsTo_ram (hg : accessGuard true s = none) (hr : s.params.regionOf s.addr = .programRam) :
    ReadsTo s (s.advance.setData (s.pramWord (addrWord s.addr))) where
  iread := by change execIread s = _; rw [execIread, hg, hr]
  ireadi := by change execIreadi s = _; rw [execIreadi, hg, hr]

/-- Reads of flash are made at once from flash, and issued from elsewhere. -/
theorem readsTo_flash (hg : accessGuard true s = none) (hr : s.params.regionOf s.addr = .flash) :
    ReadsTo s (readFlashWord s) where
  iread := by change execIread s = _; rw [execIread, hg, hr]
  ireadi := by change execIreadi s = _; rw [execIreadi, hg, hr]

/-- Both reads complete below ADDRL's carry. -/
theorem ReadsTo.completes {v : State} (h : ReadsTo s v) (hv : v = u) : exec .iread s = .next u ∧
    (s.addrl.toNat < 0xFE → exec .ireadi s = .next { u with addrl := s.addrl + 2 }) := by
  subst hv
  exact ⟨h.iread, fun hlt => h.ireadi.trans (stepAddrl_of_lt hlt)⟩

/-- Off chip `iread` issues a read of external memory or stops, and `ireadi` stops. -/
theorem reads_offChip (hg : accessGuard true s = none) (hr : ¬s.params.ramByte s.addr) (hf : ¬s.params.flashByte s.addr) :
    exec .iread s = (if Config.externalWindow s.addr then .next (issueRead .extRead s.addr s.advance)
      else .fault .unbackedProgramAddress) ∧ exec .ireadi s = .fault .ireadiOutside := by
  have hregion := regionOf_of_offChip hr hf
  change execIread s = _ ∧ execIreadi s = _
  rw [execIread, execIreadi, hg, hregion]
  cases Config.externalWindow s.addr with
  | false => exact ⟨rfl, rfl⟩
  | true => exact ⟨rfl, rfl⟩

/-- The word written is one of the next two exactly where its address is (20_memory.md R88). -/
theorem writesPrefetched_iff : writesPrefetched s = true ↔
    BitVec.ofNat 16 (s.addr.toNat / 2) = s.pc + 1 ∨ BitVec.ofNat 16 (s.addr.toNat / 2) = s.pc + 2 := by
  rw [writesPrefetched, addrWord_eq_ofNat, Bool.or_eq_true, beq_iff_eq, beq_iff_eq]

/-- A word at another address is not one of the next two. -/
theorem writesPrefetched_eq_false (h1 : BitVec.ofNat 16 (s.addr.toNat / 2) ≠ s.pc + 1)
    (h2 : BitVec.ofNat 16 (s.addr.toNat / 2) ≠ s.pc + 2) : writesPrefetched s = false :=
  Bool.eq_false_iff.mpr (mt writesPrefetched_iff.mp (not_or.mpr ⟨h1, h2⟩))

/-- Writes of a program-RAM word other than the next two. -/
theorem writes_ram (hg : accessGuard false s = none) (hr : s.params.regionOf s.addr = .programRam)
    (hp : writesPrefetched s = false) : exec .iwrite s = .next (pmemWrite s.advance (addrWord s.addr) s.dataWord) ∧
      exec .iwritei s = stepAddrl s.addrl (pmemWrite s.advance (addrWord s.addr) s.dataWord) := by
  change execIwrite s = _ ∧ execIwritei s = _
  rw [execIwrite, execIwritei, hg, hr, hp]
  exact ⟨rfl, rfl⟩

/-- Writes of one of the next two words stop. -/
theorem writes_prefetched (hg : accessGuard false s = none) (hr : s.params.regionOf s.addr = .programRam)
    (hp : writesPrefetched s = true) :
    exec .iwrite s = .fault .writesPrefetchedWord ∧ exec .iwritei s = .fault .writesPrefetchedWord := by
  change execIwrite s = _ ∧ execIwritei s = _
  rw [execIwrite, execIwritei, hg, hr, hp]
  exact ⟨rfl, rfl⟩

/-- `iwrite` to flash is no operation. -/
theorem iwrite_flash (hg : accessGuard false s = none) (hr : s.params.regionOf s.addr = .flash) :
    exec .iwrite s = .next s.advance := by
  change execIwrite s = _
  rw [execIwrite, hg, hr]

/-- Off chip `iwrite` issues a write of external RAM, or is no operation. -/
theorem iwrite_offChip (hg : accessGuard false s = none) (hr : ¬s.params.ramByte s.addr) (hf : ¬s.params.flashByte s.addr) :
    exec .iwrite s = .next (if Config.externalWindow s.addr && Config.externalRam s.addr
      then issue .extWrite s.addr s.dataWord s.advance else s.advance) := by
  have hregion := regionOf_of_offChip hr hf
  change execIwrite s = _
  rw [execIwrite, hg, hregion]
  cases Config.externalWindow s.addr with
  | false => rfl
  | true => cases Config.externalRam s.addr with
    | false => rfl
    | true => rfl

/-- Outside program RAM `iwritei` stops. -/
theorem iwritei_outside (hg : accessGuard false s = none) (hr : ¬s.params.ramByte s.addr) :
    exec .iwritei s = .fault .iwriteiOutside := by
  have hregion : s.params.regionOf s.addr ≠ .programRam := mt regionOf_eq_programRam_iff.mp hr
  change execIwritei s = _
  rw [execIwritei, hg]
  cases h : s.params.regionOf s.addr with
  | programRam => exact absurd h hregion
  | flash | external | unbacked => rfl

/-- DATA written to the program-RAM word that an even ADDR selects, byte by byte. -/
theorem pmemWrite_dataWord (heven : s.addrl.getLsbD 0 = false) (hram : s.params.ramByte s.addr) :
    pmemWrite s.advance (addrWord s.addr) s.dataWord = { s with
      pc := s.pc + 1
      pram := memWrite Layout.unlistedRam (memWrite Layout.unlistedRam s.pram s.addr.toNat s.datah) (s.addr.toNat + 1) s.datal } := by
  rw [pmemWrite_inPram (s := s.advance) (inPram_of_regionOf (regionOf_of_ramByte hram)), wordWrite, State.dataWord,
    hiByte_joinBytes, loByte_joinBytes, two_mul_addrWord heven (byteAddress_lt_of_le hram.2)]
  rfl

/-! ### The controller (46_system_control.md R252, R254 to R257) -/

/-- The `n` words from `wa` on are those less than `n` above it, around the end of the program space. -/
theorem exists_ofNat_iff {x wa : Word} {n : Nat} (hn : n ≤ 2 ^ 16) :
    (∃ j < n, x = wa + BitVec.ofNat 16 j) ↔ (x - wa).toNat < n := by
  constructor
  · rintro ⟨j, hj, rfl⟩
    rw [add_sub_cancel_left, BitVec.toNat_ofNat, Nat.mod_eq_of_lt (by omega)]
    exact hj
  · intro h
    exact ⟨(x - wa).toNat, h, by rw [BitVec.ofNat_toNat, BitVec.setWidth_eq, add_sub_cancel]⟩

/-- A completed erase leaves the erased word in its block alone. -/
theorem complete_erase_flashWord (hwf : Memory.wf Layout.unlistedFlash s.flash) (hk : op.kind = .erase) (x : Word) :
    (complete op s).flashWord x = if (x - addrWord op.addr).toNat < 256 then s.params.erasedWord else s.flashWord x := by
  obtain ⟨kind, a, d, n⟩ := op
  obtain rfl : kind = .erase := hk
  rw [State.flashWord, complete_erase_flash, wordRead_eraseWords hwf]
  exact if_congr (exists_ofNat_iff (by decide)) rfl rfl

/-- A completed flash write leaves its word where the word was erased, and every other word. -/
theorem complete_fwrite_flashWord (hwf : Memory.wf Layout.unlistedFlash s.flash) (hk : op.kind = .fwrite) :
    (s.flashWord (addrWord op.addr) = s.params.erasedWord → (complete op s).flashWord (addrWord op.addr) = op.data) ∧
      ∀ x : Word, x ≠ addrWord op.addr → (complete op s).flashWord x = s.flashWord x := by
  obtain ⟨kind, a, d, n⟩ := op
  obtain rfl : kind = .fwrite := hk
  refine ⟨fun herased => ?_, fun x hx => wordRead_wordWrite_other hwf _ hx⟩
  exact (wordRead_wordWrite_same hwf _ _).trans (if_pos herased)

/-- DATA set is DATA read. -/
@[simp] theorem State.setData_dataWord (s : State) (v : Word) : (s.setData v).dataWord = v := joinBytes_hiByte_loByte v

/-- A completed read of flash leaves the word in DATA. -/
theorem complete_read (hk : op.kind = .fread ∨ op.kind = .ireadFlash) :
    (complete op s).dataWord = s.flashWord (addrWord op.addr) ∧ (complete op s).flash = s.flash := by
  obtain ⟨kind, a, d, n⟩ := op
  obtain rfl | rfl : kind = .fread ∨ kind = .ireadFlash := hk
  · exact ⟨State.setData_dataWord s _, rfl⟩
  · exact ⟨State.setData_dataWord s _, rfl⟩

/-- A completed read of external memory leaves the platform's word in DATA. -/
theorem complete_extRead (hk : op.kind = .extRead) :
    (complete op s).dataWord = Config.externalWord op.addr s.time ∧ (complete op s).flash = s.flash := by
  obtain ⟨kind, a, d, n⟩ := op
  obtain rfl : kind = .extRead := hk
  exact ⟨State.setData_dataWord s _, rfl⟩

/-- A completed write of external memory empties the slot alone. -/
theorem complete_extWrite (hk : op.kind = .extWrite) : complete op s = { s with flashOp := none } := by
  obtain ⟨kind, a, d, n⟩ := op
  obtain rfl : kind = .extWrite := hk
  rfl

/-! ### A pending operation through a step (46_system_control.md R253) -/

/-- An instruction that completes leaves the pending operation in its slot. -/
theorem exec_keeps_pending {t : State} (hop : s.flashOp = some op) (h : exec i s = .next t) : t.flashOp = some op := by
  by_cases hi : i ∈ [.ferase, .fread, .fwrite, .iread, .ireadi, .iwrite]
  · obtain ⟨e, he⟩ := exec_faults_of_busy hi (Option.isSome_of_eq_some hop)
    cases h.symm.trans he
  · exact ((exec_hiddenFrame h).flashOp hi).trans hop

/-- Break mode, an interrupt entry and an instruction leave the pending operation in its slot. -/
theorem coreStep_keeps_pending {t : State} (hop : s.flashOp = some op) (h : coreStep s = .next t) : t.flashOp = some op := by
  obtain ⟨-, rfl⟩ | h | ⟨w, i, -, -, h⟩ := coreStep_eq_next_cases h
  · exact hop
  · obtain ⟨-, rfl⟩ := interruptEntry_eq_ok.mp h
    exact hop
  · exact exec_keeps_pending hop h

/-- The environment leaves the controller's slot. -/
theorem environment_flashOp (s : State) : (environment s).flashOp = s.flashOp := by
  rw [(environment_frame s).1]

/-! ### Break mode (60_exceptions.md R310) -/

/-- A step in Break mode is the controller's move and the environment's. -/
theorem step_of_breakMode (hb : s.breakMode = true) (hr : s.resetRequest = none) :
    step s = .next (environment (controllerTick s)) := by
  have hbreak : (controllerTick s).breakMode = true := by rw [controllerTick_frame]; exact hb
  change instructionCycle s = _
  rw [instructionCycle, hr]
  exact congrArg afterCore (if_pos hbreak)

/-- The controller and the environment leave the core as it was. -/
theorem environment_controllerTick_frame {t : State} (h : t = environment (controllerTick s)) : t = { s with
    flash := t.flash, flashOp := t.flashOp, datah := t.datah, datal := t.datal, t0tmr := t.t0tmr, t0Prescaler := t.t0Prescaler
    wdtCounter := t.wdtCounter, wdtPrescaler := t.wdtPrescaler, irq := t.irq, resetRequest := t.resetRequest, time := t.time } := by
  have hcontroller := controllerTick_frame s
  have henv := (environment_frame (controllerTick s)).1
  rw [← h] at henv
  generalize controllerTick s = u at hcontroller henv
  rw [henv, hcontroller]

end SystemControl

/-! ### The statements -/

/-- Settles O49: both forms set the mode, and a step in it is the controller's move and the environment's. -/
theorem breakModeHoldsTheCore : Obligations.BreakModeHoldsTheCore :=
  fun _ => ⟨rfl, rfl, fun hb hr => ⟨_, step_of_breakMode hb hr, environment_controllerTick_frame rfl⟩, rfl⟩

/-- Settles O56: a due operation is completed, each kind by its own effect. -/
theorem controllerCompletes : Obligations.ControllerCompletes := by
  intro s op hwf hop hwait
  have htick : controllerTick s = complete op s := controllerTick_done hop hwait
  dsimp only
  rw [htick]
  exact ⟨rfl, complete_erase_flashWord hwf, complete_fwrite_flashWord hwf, complete_read, complete_extRead, complete_extWrite⟩

/-- Settles O57: the controller counts the operation down, and nothing else in the step touches its slot. -/
theorem pendingOperationCountsDown : Obligations.PendingOperationCountsDown := by
  intro s t op n hreset hop hwait h
  obtain ⟨c, hc, -⟩ | ⟨-, u, hu, rfl⟩ := step_eq_next_cases h
  · cases hreset.symm.trans hc
  · rw [controllerTick_wait hop hwait] at hu
    rw [environment_flashOp]
    exact coreStep_keeps_pending rfl hu

/-- Settles O50: past the guard and the alignment check, each form issues inside flash alone. -/
theorem flashInstructionsIssue : Obligations.FlashInstructionsIssue := by
  intro s hidle hpc adr block
  have hg := flashGuard_none hidle hpc
  refine ⟨fun heven hf => ?_, fun heven hf => ?_, fun heven hf => ⟨?_, ?_⟩, fun heven hf => ⟨?_, ?_⟩⟩
  · exact (execFerase_eq s).trans (guardedIssue_inFlash hg heven (addrInFlash_iff.mpr hf))
  · exact (execFerase_eq s).trans (guardedIssue_outside hg heven (mt addrInFlash_iff.mp hf))
  · exact (execFread_eq s).trans (guardedIssue_inFlash hg heven (addrInFlash_iff.mpr hf))
  · exact (execFwrite_eq s).trans (guardedIssue_inFlash hg heven (addrInFlash_iff.mpr hf))
  · exact (execFread_eq s).trans (guardedIssue_outside hg heven (mt addrInFlash_iff.mp hf))
  · exact (execFwrite_eq s).trans (guardedIssue_outside hg heven (mt addrInFlash_iff.mp hf))

/-- Settles O51: the guard, and then the alignment check of each form. -/
theorem flashInstructionGuards : Obligations.FlashInstructionGuards := by
  intro s fromFlash
  refine ⟨fun hbusy i hi => ?_, fun hidle hpc i hi => ?_, fun hidle hpc hodd => ?_, fun hidle hpc hodd => ⟨?_, ?_⟩⟩
  · exact exec_of_flashGuard hi (flashGuard_busy hbusy)
  · exact exec_of_flashGuard hi (by rw [flashGuard_idle hidle, if_pos (inFlash_iff.mpr hpc)])
  · exact (execFerase_eq s).trans (guardedIssue_unaligned (flashGuard_none hidle hpc) hodd)
  · exact (execFread_eq s).trans (guardedIssue_unaligned (flashGuard_none hidle hpc) hodd)
  · exact (execFwrite_eq s).trans (guardedIssue_unaligned (flashGuard_none hidle hpc) hodd)

/-- Settles O52: by region, and for flash by where the instruction is fetched from. -/
theorem programMemoryReads : Obligations.ProgramMemoryReads := by
  intro s hw hidle heven adr fromFlash issuedRead reads
  have hg : accessGuard true s = none := accessGuard_none hidle heven
  have hregion (hf : s.params.flashByte s.addr) : s.params.regionOf s.addr = .flash :=
    regionOf_of_flashByte (hw.not_ramByte hf) hf
  refine ⟨fun hram => ?_, fun hf hpc => ?_, fun hf hpc => ?_, reads_offChip hg⟩
  · exact (readsTo_ram hg (regionOf_of_ramByte hram)).completes (advance_setData_wordRead _ _ heven (byteAddress_lt_of_le hram.2))
  · have hword : readFlashWord s = s.advance.setData (s.flashWord (addrWord s.addr)) := if_pos (inFlash_iff.mpr hpc)
    exact (readsTo_flash hg (hregion hf)).completes (hword.trans (advance_setData_wordRead _ _ heven (byteAddress_lt_of_le hf.2)))
  · have hissue : readFlashWord s = issueRead .ireadFlash s.addr s.advance := if_neg (mt inFlash_iff.mp hpc)
    exact (readsTo_flash hg (hregion hf)).completes hissue

/-- Settles O53: by region, and in program RAM by whether the word is one of the next two. -/
theorem programMemoryWrites : Obligations.ProgramMemoryWrites := by
  intro s hw hidle heven adr wa written
  have hg : accessGuard false s = none := accessGuard_none hidle heven
  refine ⟨fun hram h1 h2 => ?_, fun hram hnext => ?_, fun hf => ?_, iwrite_offChip hg, iwritei_outside hg⟩
  · obtain ⟨hwrite, hwritei⟩ := writes_ram hg (regionOf_of_ramByte hram) (writesPrefetched_eq_false h1 h2)
    rw [pmemWrite_dataWord heven hram] at hwrite hwritei
    exact ⟨hwrite, fun hlt => hwritei.trans (stepAddrl_of_lt hlt)⟩
  · exact writes_prefetched hg (regionOf_of_ramByte hram) (writesPrefetched_iff.mpr hnext)
  · exact iwrite_flash hg (regionOf_of_flashByte (hw.not_ramByte hf) hf)

/-- Settles O54: the guard of each pair, and ADDRL's carry in the regions where the counting forms go on. -/
theorem programAccessGuards : Obligations.ProgramAccessGuards := by
  intro s adr
  refine ⟨fun hbusy => ⟨?_, ?_, fun i hi => ?_⟩, fun hidle hodd => ?_, fun hidle hfe hmem => ?_, fun hidle hfe hram h1 h2 => ?_⟩
  · exact exec_write_of_accessGuard (by simp) (accessGuard_busy hbusy)
  · exact exec_write_of_accessGuard (by simp) (accessGuard_busy hbusy)
  · refine exec_read_of_accessGuard hi ((accessGuard_busy hbusy).trans ?_)
    rw [Bool.true_and, ← apply_ite some]
    exact congrArg some (if_congr addrInFlash_iff rfl rfl)
  · have hg (reads : Bool) : accessGuard reads s = some .oddAddr := by rw [accessGuard_idle hidle, if_pos hodd]
    simp only [List.forall_mem_cons]
    exact ⟨exec_read_of_accessGuard (by simp) (hg true), exec_read_of_accessGuard (by simp) (hg true),
      exec_write_of_accessGuard (by simp) (hg false), exec_write_of_accessGuard (by simp) (hg false), nofun⟩
  · have hg : accessGuard true s = none := accessGuard_none hidle (hfe ▸ rfl)
    by_cases hram : s.params.ramByte s.addr
    · exact (readsTo_ram hg (regionOf_of_ramByte hram)).ireadi.trans (stepAddrl_carry hfe)
    · have hf : s.params.flashByte s.addr := hmem.resolve_left hram
      exact (readsTo_flash hg (regionOf_of_flashByte hram hf)).ireadi.trans (stepAddrl_carry hfe)
  · have hg : accessGuard false s = none := accessGuard_none hidle (hfe ▸ rfl)
    exact (writes_ram hg (regionOf_of_ramByte hram) (writesPrefetched_eq_false h1 h2)).2.trans (stepAddrl_carry hfe)

end Sys2Proof.Machine
end

section
/-! Resets and interrupts (60_exceptions.md, 70_reset_and_hazards.md): a requested reset (O10), the watchdog's request (O11), a hardware
interrupt and its return (O46, O47, O48). -/

namespace Sys2Proof.Machine

section Exceptions

variable {b : Bool} {s : State}

/-! ### Resets (70_reset_and_hazards.md R320, R322) -/

/-- A requested reset comes before the controller and the core (60_exceptions.md R292). -/
theorem step_of_resetRequest {c : ResetCause} (h : s.resetRequest = some c) : step s = .next (environment (applyReset c s)) := by
  change instructionCycle s = _
  rw [instructionCycle, h]

/-- WD written is bit 4 masked out, and in again when set. -/
theorem setBit_wd : ∀ (st : Byte) (b : Bool), setBit st 4 b = st &&& 0xEF ||| (if b then 0x10 else 0x00) := by decide

/-- BO written is bit 3 masked out, and in again when set. -/
theorem setBit_bo : ∀ (st : Byte) (b : Bool), setBit st 3 b = st &&& 0xF7 ||| (if b then 0x08 else 0x00) := by decide

/-! ### The watchdog (60_exceptions.md R301, R302) -/

/-- A cause other than the watchdog's is not the watchdog. -/
theorem otherReset_ne_watchdog (n : Nat) : otherReset n ≠ some .watchdog := by
  unfold otherReset
  split <;> nofun

/-- The watchdog's request is made when it is enabled and its period has run out, and by nothing else. -/
theorem nextReset_eq_watchdog_iff :
    nextReset s = some .watchdog ↔ Config.watchdogEnabled = true ∧ Config.watchdogPeriod ≤ s.wdtCounter := by
  rw [← decide_eq_true_iff (p := Config.watchdogPeriod ≤ s.wdtCounter), ← Bool.and_eq_true, nextReset]
  split
  next h => exact iff_of_true rfl h
  next h => exact iff_of_false (otherReset_ne_watchdog _) h

/-- The environment requests a reset for the watchdog by the count it leaves. -/
theorem environment_resetRequest_watchdog_iff : (environment s).resetRequest = some .watchdog ↔
    Config.watchdogEnabled = true ∧ Config.watchdogPeriod ≤ (environment s).wdtCounter :=
  nextReset_eq_watchdog_iff

/-! ### Taking an interrupt (60_exceptions.md R283, R291, R292) -/

/-- Out of Break mode the core takes a requested and enabled interrupt before it fetches. -/
theorem coreStep_of_interrupt (hb : s.breakMode = false) (hirq : s.irq = true) (hgie : s.gie = true) :
    coreStep s = settle (interruptEntry s.pc s) := by
  rw [coreStep, hb, hirq, hgie]
  rfl

/-- A step that takes an interrupt enters it after the controller's move, which leaves pc. -/
theorem step_of_interrupt (hr : s.resetRequest = none) (hb : s.breakMode = false) (hirq : s.irq = true) (hgie : s.gie = true) :
    step s = afterCore (settle (interruptEntry s.pc (controllerTick s))) := by
  have hcore : coreStep (controllerTick s) = settle (interruptEntry (controllerTick s).pc (controllerTick s)) := by
    apply coreStep_of_interrupt <;> rw [controllerTick_frame] <;> assumption
  have hpc : (controllerTick s).pc = s.pc := by rw [controllerTick_frame]
  change instructionCycle s = _
  rw [instructionCycle, hr, ← hpc, ← hcore]

/-! ### Returning from an interrupt (60_exceptions.md R287) -/

/-- A return outside a routine stops. -/
theorem interruptReturn_outside (h : s.inIsr = false) : interruptReturn b s = .error .retiOutsideInterrupt := by
  rw [interruptReturn, restoreShadow, if_pos h]

/-- The options of a `reti` leave in_isr. -/
theorem retiOptions_inIsr (n : BitVec 3) : (retiOptions n s).inIsr = s.inIsr := by rw [retiOptions_eq]

end Exceptions

/-! ### The statements -/

/-- Settles O10: by the cause, which shows in STATUS alone. -/
theorem resetStep : Obligations.ResetStep := by
  intro s c hc
  refine (step_of_resetRequest hc).trans (congrArg afterCore (congrArg Host.Outcome.next ?_))
  cases c with
  | powerOn | other => rfl
  | watchdog => rw [applyReset, resetStatusFor, setBit_wd]
  | brownOut => rw [applyReset, resetStatusFor, setBit_bo]

/-- Settles O11: every step with a next state ends in the environment's move, which makes the request. -/
theorem watchdogResetsWhenExpired : Obligations.WatchdogResetsWhenExpired := by
  intro s t h
  obtain ⟨c, -, rfl⟩ | ⟨-, u, -, rfl⟩ := step_eq_next_cases h
  · exact environment_resetRequest_watchdog_iff
  · exact environment_resetRequest_watchdog_iff

/-- Settles O46: the step is the interrupt entry after the controller's move, which leaves all but flash, DATA and its slot. -/
theorem hardwareInterrupt : Obligations.HardwareInterrupt := by
  intro s hr hb hirq hgie c
  have hstep : step s = afterCore (settle (interruptEntry s.pc c)) := step_of_interrupt hr hb hirq hgie
  have hframe : c = { s with flash := c.flash, datah := c.datah, datal := c.datal, flashOp := c.flashOp } := controllerTick_frame s
  have hin : c.inIsr = s.inIsr := by rw [hframe]
  refine ⟨fun hisr => ?_, fun hisr => ?_⟩
  · rw [hstep, settle_eq_next.mpr (interruptEntry_eq_ok.mpr ⟨hin.trans hisr, rfl⟩)]
    clear_value c
    rw [hframe]
    rfl
  · rw [hstep, interruptEntry_nested (hin.trans hisr)]
    rfl

/-- Settles O47: the options first, then the shared return, by whether a routine is running. -/
theorem returnFromInterrupt : Obligations.ReturnFromInterrupt := by
  refine fun n s => ⟨fun hisr => ?_, fun hisr => ?_⟩
  · have hreturn := interruptReturn_eq_ok (b := n.getLsbD 2) |>.mpr ⟨(retiOptions_inIsr n).trans hisr, rfl⟩
    refine settle_eq_next.mpr (hreturn.trans ?_)
    rw [retiOptions_eq]
    rfl
  · exact settle_eq_fault.mpr (interruptReturn_outside ((retiOptions_inIsr n).trans hisr))

/-- Settles O48: the entry saves every item that it or the routine's one instruction writes, but GIE and in_isr, which the return leaves
as they were before the entry. -/
theorem interruptThenReturn : Obligations.InterruptThenReturn := by
  intro s hb hirq hgie hisr
  obtain ⟨hreti, -⟩ := returnFromInterrupt 4 { s with
    shadow := saveShadow s.pc s, inIsr := true, gie := false, spdreg := s.intspd, pc := s.intvec }
  refine ⟨_, (coreStep_of_interrupt hb hirq hgie).trans (settle_eq_next.mpr (interruptEntry_eq_ok.mpr ⟨hisr, rfl⟩)), ?_⟩
  rw [hreti rfl]
  simp [saveShadow, hgie, hisr]

end Sys2Proof.Machine
end

section
/-! Cycle counts (70_reset_and_hazards.md R335, R336): the count of a skip from where it leaves pc, the counts that depend on an address
(O38). -/

namespace Sys2Proof.Machine

section Timing

variable {f : FileOperand} {a : Word} {c : Bool} {count : Byte → Byte} {cond : Byte → Bool} {s t u : State}

/-! ### Skips (R335, R336) -/

/-- Where a skip form leaves pc: at the next instruction, or at SkipTarget (30_encoding.md R110). -/
def EndsSkip (s t : State) : Prop := t.pc = s.pc + 1 ∨ skipTarget s = .ok t.pc

/-- The end of a skip form that has gone on to the next instruction. -/
theorem EndsSkip.of_skipWhen (hu : u.pc = s.pc + 1) (h : skipWhen c s u = .ok t) : EndsSkip s t := by
  obtain ⟨-, rfl⟩ | ⟨-, p, hp, rfl⟩ := skipWhen_eq_ok.mp h
  · exact .inl hu
  · exact .inr hp

/-- A compare-and-skip or bit-test form. -/
theorem EndsSkip.of_testAndSkip (h : testAndSkip f cond s = .ok t) : EndsSkip s t := by
  obtain ⟨v, -, h⟩ := testAndSkip_eq_ok.mp h
  exact .of_skipWhen rfl h

/-- A count-and-skip form into W. -/
theorem EndsSkip.of_countToW (h : countToW f count cond s = .ok t) : EndsSkip s t := by
  obtain ⟨v, -, h⟩ := countToW_eq_ok.mp h
  exact .of_skipWhen rfl h

/-- A count-and-skip form into a file register, which is not PCL. -/
theorem EndsSkip.of_countInFile (h : countInFile f count cond s = .ok t) : EndsSkip s t := by
  obtain ⟨a, v, u, -, hne, -, hu, h⟩ := countInFile_eq_ok.mp h
  exact .of_skipWhen (writeFile_pc hu hne) h

/-- Every skip form leaves pc at the next instruction or at SkipTarget. -/
theorem exec_endsSkip (f : FileOperand) (b : BitVec 3) (k : Byte) (s t : State) :
    ∀ i ∈ [.cseWLit k, .csneWLit k, .cseWFr f, .csneWFr f, .sbFrBit f b, .snbFrBit f b, .decszWFr f, .decsnzWFr f, .incszWFr f,
           .incsnzWFr f, .decszFr f, .decsnzFr f, .incszFr f, .incsnzFr f], exec i s = .next t → EndsSkip s t := by
  have literal {c : Bool} (h : settle (skipWhen c s s.advance) = .next t) : EndsSkip s t := .of_skipWhen rfl (settle_eq_next.mp h)
  have test {cond} (h : settle (testAndSkip f cond s) = .next t) : EndsSkip s t := .of_testAndSkip (settle_eq_next.mp h)
  have intoW {count cond} (h : settle (countToW f count cond s) = .next t) : EndsSkip s t := .of_countToW (settle_eq_next.mp h)
  have inFile {count cond} (h : settle (countInFile f count cond s) = .next t) : EndsSkip s t :=
    .of_countInFile (settle_eq_next.mp h)
  simp only [List.forall_mem_cons]
  exact ⟨literal, literal, test, test, test, test, intoW, intoW, intoW, intoW, inFile, inFile, inFile, inFile, nofun⟩

/-- The count is the number of words pc has moved by. -/
theorem skipCycles_of_pc {m : Nat} (hm : m < 65536) (h : t.pc = s.pc + BitVec.ofNat 16 m) : skipCycles s t = m := by
  rw [skipCycles, h, add_sub_cancel_left, BitVec.toNat_ofNat, Nat.mod_eq_of_lt hm]

/-- A form that skips moves pc by two words and the extenders passed. -/
theorem EndsSkip.pc_of_skip {n : Nat} (h : EndsSkip s t) (hn : n < 65534) (hs : SkipsOver n s) (hne : t.pc ≠ s.pc + 1) :
    t.pc = s.pc + BitVec.ofNat 16 (2 + n) := by
  have htarget : skipTarget s = .ok t.pc := h.resolve_left hne
  have hpc : t.pc = s.pc + 1 + BitVec.ofNat 16 n + 1 :=
    Except.ok.inj (htarget.symm.trans (skipTargetRule s n (by omega) hs))
  bv_omega

/-- The table's row for a skip form, from where it leaves pc. -/
theorem skipCycles_of_endsSkip (h : EndsSkip s t) : (t.pc = s.pc + 1 → skipCycles s t = 1) ∧
    ∀ n < 65534, SkipsOver n s → t.pc ≠ s.pc + 1 → skipCycles s t = 2 + n :=
  ⟨skipCycles_of_pc (by decide), fun _ hn hs hne => skipCycles_of_pc (by omega) (h.pc_of_skip hn hs hne)⟩

/-! ### Writes of `fr` and program-memory accesses (R335) -/

/-- A form that writes its operand: by whether the operand is PCL. -/
theorem fileWriteCycles_of_address (ha : effectiveAddress f s = .ok a) : fileWriteCycles f s = if a = Layout.addrPcl then 3 else 1 := by
  rw [fileWriteCycles, ha]

/-- An access to program RAM blocks. -/
theorem accessCycles_ram (hr : s.params.ramByte s.addr) : readCycles s = 4 ∧ writeCycles s = 4 := by
  rw [readCycles, writeCycles, regionOf_eq_programRam_iff.mpr hr]
  exact ⟨rfl, rfl⟩

/-- A read of flash blocks where it is fetched from flash, and a write there does nothing. -/
theorem accessCycles_flash (hr : ¬s.params.ramByte s.addr) (hf : s.params.flashByte s.addr) :
    readCycles s = (if s.params.flashBase.toNat ≤ s.pc.toNat ∧ s.pc.toNat ≤ s.params.flashEnd.toNat then 4 else 1) ∧
    writeCycles s = 1 := by
  rw [readCycles, writeCycles, regionOf_of_flashByte hr hf]
  exact ⟨if_congr inFlash_iff rfl rfl, rfl⟩

/-- An access elsewhere does not block. -/
theorem accessCycles_offChip (hr : ¬s.params.ramByte s.addr) (hf : ¬s.params.flashByte s.addr) :
    readCycles s = 1 ∧ writeCycles s = 1 := by
  rw [readCycles, writeCycles, regionOf_of_offChip hr hf]
  cases Config.externalWindow s.addr <;> exact ⟨rfl, rfl⟩

/-! ### Rows of the table -/

/-- The forms of a row all take `n` cycles where their counts, listed, are all `n`. -/
theorem cycles_of_row {row : List Instr} {n : Nat} (h : row.map (cycles · s t) = List.replicate row.length n) :
    ∀ i ∈ row, cycles i s t = n :=
  List.map_eq_replicate_iff.mp h

end Timing

/-! ### The statement -/

/-- Settles O38: row by row of the table. -/
theorem cycleCounts : Obligations.CycleCounts := by
  refine ⟨fun s t f b k i hi h => ?_, fun s t f b a ha i hi => ?_, fun s t f k => ?_, fun s t hw => ?_, fun s t f k m n => ?_⟩
  · have hcycles : cycles i s t = skipCycles s t := cycles_of_row rfl i hi
    rw [hcycles]
    exact skipCycles_of_endsSkip (exec_endsSkip f b k s t i hi h)
  · have hcycles : cycles i s t = fileWriteCycles f s := cycles_of_row rfl i hi
    exact hcycles.trans (fileWriteCycles_of_address ha)
  · exact cycles_of_row rfl
  · intro adr
    refine ⟨fun hr => ?_, fun hf => ?_, fun hr hf => accessCycles_offChip hr hf⟩
    · obtain ⟨hread, hwrite⟩ := accessCycles_ram hr
      simp only [List.forall_mem_cons]
      exact ⟨hread, hread, hwrite, hwrite, nofun⟩
    · obtain ⟨hread, hwrite⟩ := accessCycles_flash (hw.not_ramByte hf) hf
      simp only [List.forall_mem_cons]
      exact ⟨⟨hread, hread, nofun⟩, hwrite⟩
  · exact ⟨rfl, rfl, rfl, rfl, rfl, rfl, rfl, rfl, cycles_of_row rfl⟩

end Sys2Proof.Machine
end
